-- ==== Sys2Proof/Word.lean ====
section
/-! DEFINITION. The bit vectors the spec names, by width (10_state.md R21 to R31, 30_encoding.md R70). -/

namespace Sys2Proof

/-- One line level, flag or sampled bit (R28, R29, R31). -/
abbrev Bit := BitVec 1

/-- A 32-bit transmit word `W` (R79), also the width of `SR` (R23). -/
abbrev TxWord := BitVec 32

/-- A 16-bit data operand, `RX`, `RESULT`, or a device register's content (R24, R31, R50). -/
abbrev Data := BitVec 16

/-- A 6-bit register address, also the width of the operand field `F` (R73, R74). -/
abbrev Addr := BitVec 6

end Sys2Proof
end

