-- ==== Sys2Proof/Config.lean ====
section
/-! DEFINITION. The parameters of 00_scope.md R6 and R7 (fixed when the block is built, R35), and the free values: opaque
constants with no body, for what the spec leaves open. -/

namespace Sys2Proof.Config

/-- `N_REGS` (R6). -/
def nRegs : Nat := 64

/-- `REG_WIDTH` (R6). -/
def regWidth : Nat := 16

/-- `ADDR_BITS` (R6). -/
def addrBits : Nat := 6

/-- `TX_WIDTH` (R6): bits shifted out per transaction, always. -/
def txWidth : Nat := 32

/-- `RX_BITS` (R6): bits clocked in when a read is wanted, one dummy and 16 data. -/
def rxBits : Nat := 17

/-- `RETRY_BUDGET` (R6): the largest number of ready-poll iterations. -/
def retryBudget : Nat := 111

/-- `READY_LEVEL` (R7, decision D7): the `DIN` level that means ready. The spec's value, from general knowledge (log 7). -/
def readyLevel : Bit := 1#1

/-- `CS_ACTIVE_LEVEL` (R7, decision D6): the pin level of an asserted chip-select (log 7). -/
def csActiveLevel : Bit := 1#1

/-- `ND_SHIFT` (R7, R78, decision D8): where the command group of a word without data ends (log 8). -/
def ndShift : Nat := 0

/-- `SUBOP_SHIFT` (R7, R75, decision D9): where the opcode-00 selector stands in the operand field (log 8). -/
def subopShift : Nat := 0

/-! ## Times (R6, R7, R225), in nanoseconds (log 14) -/

/-- `T_SETTLE` = 5 µs (R7, decision D12). -/
def tSettleNs : Nat := 5000

/-- `T_CSS` = 0 (R7, decision D12). -/
def tCssNs : Nat := 0

/-- `T_SKH` = 2 µs (R6). -/
def tSkhNs : Nat := 2000

/-- `T_POLL` = 200 µs (R6). -/
def tPollNs : Nat := 200000

/-- `T_SETUP` = 2 µs (R6). -/
def tSetupNs : Nat := 2000

/-- Free value behind `T_CSH`, which R7 leaves OPEN. -/
opaque tCshOpen : Nat

/-- `T_CSH`: OPEN, greater than 0 (R7). -/
def tCshNs : Nat := tCshOpen + 1

/-- Free value behind `T_CSL`, which R7 leaves OPEN. -/
opaque tCslOpen : Nat

/-- `T_CSL`: OPEN, greater than 0 (R7). -/
def tCslNs : Nat := tCslOpen + 1

/-- Free value behind `F_CLK`, which R7 leaves OPEN. -/
opaque fClkOpen : Nat

/-- `F_CLK`: the engine clock frequency in hertz, OPEN (R7, R227); taken to be a positive whole number (log 14). -/
def fClkHz : Nat := fClkOpen + 1

/-! ## Free values -/

/-- The level the device drives on `DIN` at the n-th free draw: the oracle of R32, unconstrained (U6). -/
opaque dinLevel : Nat → Bit

/-- `SR` after a reset edge: unspecified (R38, R210). -/
opaque resetSr : Nat → TxWord

/-- `RX` after a reset edge: unspecified (R38, R210). -/
opaque resetRx : Nat → Data

/-- `BITCNT` after a reset edge: unspecified (R38, R210) within the bound of R39e. -/
opaque resetBitCnt : Nat → Fin 33

/-- `RETRY` after a reset edge: unspecified (R38, R210) within the bound of R39e. -/
opaque resetRetry : Nat → Fin 112

/-- `WR` after a reset edge: unspecified (R38, R210). -/
opaque resetWr : Nat → Bit

/-- `RESULT` after a reset edge: unspecified (R38, R210). -/
opaque resetResult : Nat → Data

/-- `WAITCNT` after a reset edge: unspecified (R38, R210). -/
opaque resetWaitCnt : Nat → Nat

/-- What the software's register store holds in a register never read or written: no defined value (R162). -/
opaque storeSentinel : Data

end Sys2Proof.Config
end

