-- ==== Sys2Proof/Syntax.lean ====
section
/-! DEFINITION. The commands (00_scope.md R5, one constructor per row of spec/opcode_table.json), the form a command has on the
host's command port (10_state.md R21), and the calls of the software dispatcher (30_encoding.md R89). -/

namespace Sys2Proof

/-- The seven commands with the operands each carries (R5, R71). `wants_read` is no part of a command: it is an argument of the
transaction beside it (R148). -/
inductive Instr where
  /-- `WriteDisable` (R141). -/
  | writeDisable
  /-- `WriteAll(d)` (R142). -/
  | writeAll (data : Data)
  /-- `EraseAll` (R143). -/
  | eraseAll
  /-- `WriteEnable` (R144). -/
  | writeEnable
  /-- `WriteShort(a, d)` (R145). -/
  | writeShort (addr : Addr) (data : Data)
  /-- `ReadShort(a)` (R146). -/
  | readShort (addr : Addr)
  /-- `EraseShort(a)` (R147). -/
  | eraseShort (addr : Addr)
deriving DecidableEq, Repr

/-- A command as the port carries it (R21): a kind code with both operands, whether the kind uses them or not. -/
structure PortCommand where
  /-- `cmd_kind`, coded by R72. -/
  kind : BitVec 3
  /-- `cmd_addr`. -/
  addr : Addr
  /-- `cmd_data`. -/
  data : Data
deriving DecidableEq, Repr

/-- The user operations the dispatcher exposes (R89, R173). Operands are numerals, not yet checked against their ranges. -/
inductive DispatcherCall where
  | read (addr : Nat)
  | write (addr data : Nat)
  | erase (addr : Nat)
  | eraseAll
  | writeAll (data : Nat)
  | writeEnable
  | writeDisable
  | readAll
deriving DecidableEq, Repr

end Sys2Proof
end

