-- ==== Sys2Proof/Machine/State.lean ====
section
/-! DEFINITION. The engine's state (10_state.md), its inputs, its observable pin trace (00_scope.md R10), the reasons it can stop
and its state after reset (10_state.md R38). -/

namespace Sys2Proof.Machine

/-- The twelve values of `PH`, the engine's program counter (R22). -/
inductive Phase where
  | idle
  | settle
  | pollSel
  | pollHi
  | pollSample
  | pollBackoff
  | txSetup
  | txHi
  | rxSetup
  | rxHi
  | csHold
  | csOff
deriving DecidableEq, Repr

/-- The named minimum waits (R225). -/
inductive Dwell where
  | tSettle
  | tCss
  | tSkh
  | tPoll
  | tSetup
  | tCsh
  | tCsl
deriving DecidableEq, Repr

/-- One event of a pin trace (R10): a level driven (recorded even when the level does not change), a level sampled, or a named
minimum wait. -/
inductive PinEvent where
  | cs (level : Bit)
  | sk (level : Bit)
  | dout (level : Bit)
  | sample (level : Bit)
  | dwell (name : Dwell)
deriving DecidableEq, Repr

/-- The levels of the inputs the host side drives at one engine clock edge: the command port (R21) and reset (R210). -/
structure HostPort where
  /-- `rst`, active high (R210). -/
  rst : Bit
  /-- `start` (R21). -/
  start : Bit
  /-- `cmd_kind`, `cmd_addr`, `cmd_data` (R21). -/
  command : PortCommand
  /-- `wants_read` (R21). -/
  wantsRead : Bit
deriving DecidableEq, Repr

/-- The whole state: the registers, pins and flags of the engine, then what the environment is about to do, then what an observer
has seen. -/
structure State where
  /-- `PH` (R22). -/
  ph : Phase
  /-- `SR`, the transmit shift register (R23). -/
  sr : TxWord
  /-- `RX`, the receive shift register (R24). -/
  rx : Data
  /-- `BITCNT` (R25). -/
  bitCnt : BitVec 6
  /-- `RETRY` (R26). -/
  retry : BitVec 7
  /-- `WR`, the latched `wants_read` (R27). -/
  wr : Bit
  /-- `CS`, logical: 1 = device selected (R28). -/
  cs : Bit
  /-- `SK`, the clock line (R28). -/
  sk : Bit
  /-- `DOUT`, the data line to the device (R28). -/
  dout : Bit
  /-- `DONE` (R31). -/
  done : Bit
  /-- `TIMEOUT` (R31). -/
  timeout : Bit
  /-- `RESULT_VALID` (R31). -/
  resultValid : Bit
  /-- `RESULT` (R31). -/
  result : Data
  /-- `WAITCNT`, engine clocks left in the phase (R33); the clocked machine alone uses it. DESIGN CHOICE: R33, D13 and D22 give it no
  width; here it is a natural number without bound (log 12). -/
  waitCnt : Nat
  /-- The levels of the host's signals at the next edge. -/
  port : HostPort
  /-- The host's levels at the edges after that one; when the list is used up the signals hold (log 2). -/
  upcoming : List HostPort
  /-- The device's answers at the next sampling steps; when the list is used up the answers are free values (R32, log 3). -/
  answers : List Bit
  /-- How many free values have been drawn (log 3, log 6). -/
  draws : Nat
  /-- The pin trace so far, oldest event first (R10, log 11). -/
  trace : List PinEvent
deriving DecidableEq, Repr

/-- The reasons a read of the machine gives no value. -/
inductive Fault where
  /-- The host read `RESULT` while `RESULT_VALID` = 0: `RESULT` then has no value (R31, U3). Raised by `readResult` only, a read
  by the host; no step of the engine raises it. Safe: the model answers nothing where the wire carries a stale value. -/
  | resultNotValid
deriving DecidableEq, Repr

/-- The reasons a step has no meaning. -/
inductive Refusal where
  /-- The instruction has no meaning in the model yet. No arm raises it: every command has its meaning. Safe. -/
  | notModelled (mnemonic : String)
  /-- `start` with `cmd_kind` = 7 in `IDLE`: no command, behaviour unspecified, a model refuses it (R82, U1). Raised by `step`.
  Safe: the model stops where the block would do something. -/
  | reservedKind
deriving DecidableEq, Repr

/-- What an engine clock edge finds on the host's signals, in the order of priority (R210, R103, R82, R114). -/
inductive Presented where
  /-- `rst` = 1: reset overrides everything. -/
  | reset
  /-- `start` = 0: no request. -/
  | nothing
  /-- `start` = 1 with the reserved kind 7. -/
  | reserved
  /-- `start` = 1 with a command. -/
  | command (i : Instr)
deriving DecidableEq, Repr

/-- The host's signals with nothing asserted (log 5). -/
def HostPort.quiet : HostPort :=
  { rst := 0#1, start := 0#1, command := { kind := 0#3, addr := 0#6, data := 0#16 }, wantsRead := 0#1 }

/-- The state after reset (R38): idle, every pin and flag 0; the registers R38 leaves unspecified are 0 by choice (log 4), and
nothing is presented, scripted or seen yet (log 5). -/
def State.reset : State :=
  { ph := .idle
    sr := 0#32
    rx := 0#16
    bitCnt := 0#6
    retry := 0#7
    wr := 0#1
    cs := 0#1
    sk := 0#1
    dout := 0#1
    done := 0#1
    timeout := 0#1
    resultValid := 0#1
    result := 0#16
    waitCnt := 0
    port := HostPort.quiet
    upcoming := []
    answers := []
    draws := 0
    trace := [] }

end Sys2Proof.Machine
end

