-- ==== Sys2Proof/Machine/Flags.lean ====
section
/-! DEFINITION. The status flags and the status port of 10_state.md R31: what clears and sets them, and what the host reads. They are
the engine's whole set of flags; there are no arithmetic flags (40_transaction.md R121). -/

namespace Sys2Proof.Machine

/-- `DONE`, `TIMEOUT` and `RESULT_VALID` cleared, as every accepted start does (R103, R149). This is also the only way out of a
reported failure: there is no return instruction (R192). -/
def clearFlags (s : State) : State := { s with done := 0#1, timeout := 0#1, resultValid := 0#1 }

/-- The flags and the result at the end of a successful transaction: `DONE` always, `RESULT` and `RESULT_VALID` if a read was
wanted (R116, R149). -/
def completeFlags (s : State) : State :=
  { s with
    result := if s.wr = 1#1 then s.rx else s.result
    resultValid := if s.wr = 1#1 then 1#1 else s.resultValid
    done := 1#1 }

/-- `busy`: combinational, `PH` ≠ `IDLE` (R31). -/
def State.busy (s : State) : Bit := if s.ph = .idle then 0#1 else 1#1

/-- The host's read of `RESULT`: a value only while `RESULT_VALID` = 1 (R31, R218, U3). -/
def readResult (s : State) : Except Fault Data :=
  if s.resultValid = 1#1 then .ok s.result else .error .resultNotValid

/-- The one failure kind `transact` reports (R190). -/
inductive DeviceError where
  | deviceTimeout
deriving DecidableEq, Repr

/-- What the status port says of the last transaction, as `transact`'s `Result<Option<u16>, DeviceError>` (R31); nothing while no
transaction has ended (`DONE` = 0). -/
inductive TransactResult where
  | notEnded
  | success (value : Option Data)
  | failed (e : DeviceError)
deriving DecidableEq, Repr

/-- `DONE`, `TIMEOUT`, `RESULT_VALID` and `RESULT` read together (R31). -/
def State.transactResult (s : State) : TransactResult :=
  if s.done = 1#1 then
    if s.timeout = 1#1 then .failed .deviceTimeout
    else .success (if s.resultValid = 1#1 then some s.result else none)
  else .notEnded

end Sys2Proof.Machine
end

