-- ==== Sys2Proof/Decode.lean ====
section
/-! DEFINITION. The command encodings of 30_encoding.md: from a transmit word, from the 32 bits on the wire and from the command
port to a command, each total and rejecting by name; then the encoders, from a command to its word, its wire bits and its port
form. -/

namespace Sys2Proof

/-! ## Bit fields -/

/-- Bit `i` of a vector as a line level (notation `v[i]`, R8). -/
def bitAt {n : Nat} (v : BitVec n) (i : Nat) : Bit := BitVec.ofBool (v.getLsbD i)

/-! ## Decoding -/

/-- Why bits stand for no command. -/
inductive DecodeReject where
  /-- A 32-bit value outside the set of R79; the engine never sends it (R85). -/
  | notACommandWord
  /-- `cmd_kind` = 7 on the port (R82). -/
  | reservedKind
  /-- A bit string that is not the fixed 32 bits long (R83). -/
  | wrongLength
deriving DecidableEq, Repr

/-- The answer of a decoder. -/
inductive Decoded where
  | command (i : Instr)
  | rejected (r : DecodeReject)
deriving DecidableEq, Repr

/-- The command a decoder answered, if it answered one. -/
def Decoded.toOption : Decoded → Option Instr
  | .command i => some i
  | .rejected _ => none

/-- One row of the opcode table: a word `w` belongs to it when `w &&& mask = pattern` (R85). -/
structure OpcodeRow where
  mask : TxWord
  pattern : TxWord
  build : TxWord → Instr

/-- The word has the row's fixed bits. -/
def OpcodeRow.covers (r : OpcodeRow) (w : TxWord) : Bool := decide (w &&& r.mask = r.pattern)

/-- The address operand of a format D word, bits 21:16 (R73, R77). -/
def addrOfD (w : TxWord) : Addr := w.extractLsb' 16 6

/-- The data operand of a format D word, bits 15:0 (R76, R77). -/
def dataOfD (w : TxWord) : Data := w.extractLsb' 0 16

/-- The address operand of a format N word, bits 5:0 (R73, R78). -/
def addrOfN (w : TxWord) : Addr := w.extractLsb' 0 6

/-- spec/opcode_table.json, in its order. -/
def opcodeTable : List OpcodeRow :=
  [ { mask := 0xFFFFFFFF#32, pattern := 0x00000100#32, build := fun _ => .writeDisable },
    { mask := 0xFFFF0000#32, pattern := 0x01010000#32, build := fun w => .writeAll (dataOfD w) },
    { mask := 0xFFFFFFFF#32, pattern := 0x00000102#32, build := fun _ => .eraseAll },
    { mask := 0xFFFFFFFF#32, pattern := 0x00000103#32, build := fun _ => .writeEnable },
    { mask := 0xFFC00000#32, pattern := 0x01400000#32, build := fun w => .writeShort (addrOfD w) (dataOfD w) },
    { mask := 0xFFFFFFC0#32, pattern := 0x00000180#32, build := fun w => .readShort (addrOfN w) },
    { mask := 0xFFFFFFC0#32, pattern := 0x000001C0#32, build := fun w => .eraseShort (addrOfN w) } ]

/-- The inverse map from a transmit word to its command (R85). -/
def decode (w : TxWord) : Decoded :=
  match opcodeTable.find? (fun r => r.covers w) with
  | some r => .command (r.build w)
  | none => .rejected .notACommandWord

/-- The word whose bits, first sent first, are the list's: bit 31 is sent first (R57). -/
def wordOfWire (bits : List Bit) : TxWord := bits.foldl (fun acc b => acc <<< 1 ||| b.setWidth 32) 0#32

/-- The command a trace of sent bits stands for; every command is exactly 32 bits long (R83, R85). -/
def decodeWire (bits : List Bit) : Decoded :=
  if bits.length = Config.txWidth then decode (wordOfWire bits) else .rejected .wrongLength

/-- The command the port carries: kind codes of R72, operands a command does not carry ignored (R81), kind 7 reserved (R82). -/
def decodePort (c : PortCommand) : Decoded :=
  match c.kind.toNat with
  | 0 => .command .writeDisable
  | 1 => .command (.writeAll c.data)
  | 2 => .command .eraseAll
  | 3 => .command .writeEnable
  | 4 => .command (.writeShort c.addr c.data)
  | 5 => .command (.readShort c.addr)
  | 6 => .command (.eraseShort c.addr)
  | _ => .rejected .reservedKind

/-! ## Encoding -/

/-- The 9-bit command group `S ‖ OP ‖ F`, the start bit always 1 (R70). -/
def commandGroup (op : BitVec 2) (f : BitVec 6) : BitVec 9 := 1#1 ++ op ++ f

/-- The selector operand `SEL(v)` of an opcode-00 command (R75), as a function of `SUBOP_SHIFT`. -/
def selectorField (subop : Nat) (v : BitVec 2) : BitVec 6 := v.setWidth 6 <<< subop

/-- The opcode of each command (R71). -/
def opcodeOf : Instr → BitVec 2
  | .writeDisable => 0b00#2
  | .writeAll _ => 0b00#2
  | .eraseAll => 0b00#2
  | .writeEnable => 0b00#2
  | .writeShort _ _ => 0b01#2
  | .readShort _ => 0b10#2
  | .eraseShort _ => 0b11#2

/-- The operand field `F` of each command: a selector (R75) or the address unchanged (R73). -/
def fieldOf (subop : Nat) : Instr → BitVec 6
  | .writeDisable => selectorField subop 0#2
  | .writeAll _ => selectorField subop 1#2
  | .eraseAll => selectorField subop 2#2
  | .writeEnable => selectorField subop 3#2
  | .writeShort a _ => a
  | .readShort a => a
  | .eraseShort a => a

/-- Format D: seven zeros, the group, the data (R77, decision D10). -/
def formatD (cg : BitVec 9) (d : Data) : TxWord := 0#7 ++ cg ++ d

/-- Format N: the group alone, zero-extended (R78), as a function of `ND_SHIFT`. -/
def formatN (nd : Nat) (cg : BitVec 9) : TxWord := cg.setWidth 32 <<< nd

/-- The data operand of the commands that carry one; they are the ones of format D (R77). -/
def dataOperand : Instr → Option Data
  | .writeDisable => none
  | .writeAll d => some d
  | .eraseAll => none
  | .writeEnable => none
  | .writeShort _ d => some d
  | .readShort _ => none
  | .eraseShort _ => none

/-- The transmit word with the two encoder constants as arguments (90_conflicts.md C3, C5). -/
def encodeWith (nd subop : Nat) (i : Instr) : TxWord :=
  match dataOperand i with
  | some d => formatD (commandGroup (opcodeOf i) (fieldOf subop i)) d
  | none => formatN nd (commandGroup (opcodeOf i) (fieldOf subop i))

/-- The transmit word `W` of a command (R79), with the decided constants. -/
def encode (i : Instr) : TxWord := encodeWith Config.ndShift Config.subopShift i

/-- The 32 bits of a word in the order they are sent, bit 31 first (R57). -/
def wireBits (w : TxWord) : List Bit := (List.range Config.txWidth).map fun j => bitAt w (31 - j)

/-- A command on the port: its kind code (R72), its operands, and zeros for operands it does not carry. -/
def encodePort : Instr → PortCommand
  | .writeDisable => { kind := 0#3, addr := 0#6, data := 0#16 }
  | .writeAll d => { kind := 1#3, addr := 0#6, data := d }
  | .eraseAll => { kind := 2#3, addr := 0#6, data := 0#16 }
  | .writeEnable => { kind := 3#3, addr := 0#6, data := 0#16 }
  | .writeShort a d => { kind := 4#3, addr := a, data := d }
  | .readShort a => { kind := 5#3, addr := a, data := 0#16 }
  | .eraseShort a => { kind := 6#3, addr := a, data := 0#16 }

/-- The engine's combinational encoder, from the three port signals to `W` (R80): none for the reserved kind. -/
def portWord (c : PortCommand) : Option TxWord := (decodePort c).toOption.map encode

/-! ## The host's table words -/

/-- The command of a row of spec/opcode_table.json from its word as the table numbers it. The table's words are the transmit
words, each 32 bits wide with bit 31 sent first; the engine stores them nowhere, so there is no byte order (R57, log 13). -/
def decodeTableWord (nbits w : Nat) : Option Instr :=
  if nbits ≤ Config.txWidth ∧ w < 2 ^ Config.txWidth then (decode (BitVec.ofNat 32 w)).toOption else none

end Sys2Proof
end

