-- ==== Sys2Proof/Machine/Operands.lean ====
section
/-! DEFINITION. Where operands come from and go to: the command port at an engine clock edge (10_state.md R21), the level of `DIN` at a
sampling step (10_state.md R29, R32) and the levels of the output pins (10_state.md R28). The operand fields of the transmit word
(30_encoding.md R73 to R76) are assembled in Sys2Proof/Decode.lean. -/

namespace Sys2Proof.Machine

/-- What the edge finds on the host's signals: reset first (R210), then `start` and the kind (R103, R82, R114). -/
def presented (s : State) : Presented :=
  if s.port.rst = 1#1 then .reset
  else if s.port.start = 1#1 then
    match decodePort s.port.command with
    | .command i => .command i
    | .rejected _ => .reserved
  else .nothing

/-- The host's signals move on to the next edge's levels, or hold (log 2). -/
def advanceHost (s : State) : State :=
  match s.upcoming with
  | [] => s
  | p :: ps => { s with port := p, upcoming := ps }

/-- `sample()`: the level of `DIN` at a sampling step (R32): the device's next scripted answer, or a free value (log 3). -/
def State.sample (s : State) : Bit :=
  match s.answers with
  | a :: _ => a
  | [] => Config.dinLevel s.draws

/-- The state once the answer has been taken. -/
def State.sampled (s : State) : State :=
  match s.answers with
  | _ :: as => { s with answers := as }
  | [] => { s with draws := s.draws + 1 }

/-- The k-th answer the device will give from here on. -/
def State.answer (s : State) (k : Nat) : Bit :=
  match s.answers[k]? with
  | some a => a
  | none => Config.dinLevel (s.draws + (k - s.answers.length))

/-- The level on the chip-select pin: `CS_ACTIVE_LEVEL` when selected, its complement when not (R28). -/
def State.csPin (s : State) : Bit := if s.cs = 1#1 then Config.csActiveLevel else ~~~Config.csActiveLevel

end Sys2Proof.Machine
end

