-- ==== Sys2Proof/Machine/Ops.lean ====
section
/-! DEFINITION. The step rules of 40_transaction.md, one function per phase exit, with the one failure and the reset edge. Each
rule is the spec's own: all its writes take effect together and read the values from before the edge (00_scope.md R9), and it adds
its events to the pin trace (R10). -/

namespace Sys2Proof.Machine

/-- Add events to the pin trace (R10). -/
def emit (events : List PinEvent) (s : State) : State := { s with trace := s.trace ++ events }

/-! ## Start and settle -/

/-- R103, accepted start with transmit word `w`: the word and `wants_read` are latched, the retry count and the flags cleared,
`DOUT` and `SK` driven low. `RESULT` keeps its old value and `CS` is not written. -/
def acceptedStart (w : TxWord) (s : State) : State :=
  emit [.dout 0#1, .sk 0#1]
    { clearFlags s with sr := w, wr := s.port.wantsRead, retry := 0#7, dout := 0#1, sk := 0#1, ph := .settle }

/-- R104: the first select. -/
def exitSettle (s : State) : State := emit [.dwell .tSettle, .cs 1#1] { s with cs := 1#1, ph := .pollSel }

/-! ## Ready poll -/

/-- R105: the poll pulse rises. -/
def exitPollSel (s : State) : State := emit [.dwell .tCss, .sk 1#1] { s with sk := 1#1, ph := .pollHi }

/-- R106: the poll pulse falls. -/
def exitPollHi (s : State) : State := emit [.dwell .tSkh, .sk 0#1] { s with sk := 0#1, ph := .pollSample }

/-- R107, a ready sample: the first bit of the word is placed, the device stays selected. -/
def pollReady (b : Bit) (s : State) : State :=
  emit [.sample b, .dout (bitAt s.sr 31)] { s with bitCnt := 0#6, dout := bitAt s.sr 31, ph := .txSetup }

/-- R108, a busy sample: the device is deselected and the iteration counted. -/
def pollBusy (b : Bit) (s : State) : State :=
  emit [.sample b, .cs 0#1] { s with cs := 0#1, retry := s.retry + 1#7, ph := .pollBackoff }

/-- R107 and R108: the status bit is sampled; `READY_LEVEL` means ready, the other level busy (R86). -/
def exitPollSample (s : State) : State :=
  if s.sample = Config.readyLevel then pollReady s.sample s.sampled else pollBusy s.sample s.sampled

/-- Taking the engine's one exception, `DeviceTimeout` (R109, R190, R191): `TIMEOUT` and `DONE` set, back to `IDLE`. Nothing is
saved, nothing else changes, there is no handler. The way back is the next accepted start, `clearFlags` (R192). -/
def raiseDeviceTimeout (s : State) : State := { s with timeout := 1#1, done := 1#1, ph := .idle }

/-- R109: after the back-off another iteration, or the failure when the budget is used up. A `RETRY` above the budget is in no
reachable state (R39e) and ends the transaction too (log 9). -/
def exitPollBackoff (s : State) : State :=
  if s.retry.toNat < Config.retryBudget then
    emit [.dwell .tPoll, .cs 1#1] { s with cs := 1#1, ph := .pollSel }
  else raiseDeviceTimeout (emit [.dwell .tPoll] s)

/-! ## Shift-out -/

/-- R110: a transmit pulse rises; `DOUT` already holds the bit. -/
def exitTxSetup (s : State) : State := emit [.dwell .tSetup, .sk 1#1] { s with sk := 1#1, ph := .txHi }

/-- R111, always: the pulse falls, the word moves up one bit and the pulse is counted. -/
def txPulseDone (s : State) : State :=
  emit [.dwell .tSkh, .sk 0#1] { s with sk := 0#1, sr := s.sr <<< 1, bitCnt := s.bitCnt + 1#6 }

/-- R111: a transmit pulse falls, then the next bit, the read phase, or the end of the bits, by the counter after this step. -/
def exitTxHi (s : State) : State :=
  if (s.bitCnt + 1#6).toNat < Config.txWidth then
    emit [.dout (bitAt s.sr 30)] { txPulseDone s with dout := bitAt s.sr 30, ph := .txSetup }
  else if s.wr = 1#1 then
    emit [.dout 0#1] { txPulseDone s with dout := 0#1, rx := 0#16, bitCnt := 0#6, ph := .rxSetup }
  else { txPulseDone s with ph := .csHold }

/-! ## Shift-in -/

/-- `RX` after one more sample (R24): shifted left, bit 15 lost, the sample into bit 0 (R121). -/
def shiftIn (rx : Data) (b : Bit) : Data := rx <<< 1 ||| b.setWidth 16

/-- R112: a read bit is sampled, then the pulse rises. -/
def exitRxSetup (s : State) : State :=
  emit [.dwell .tSetup, .sample s.sample, .sk 1#1]
    { s.sampled with rx := shiftIn s.rx s.sample, sk := 1#1, ph := .rxHi }

/-- R113: a read pulse falls and is counted; after the seventeenth the bits are done. -/
def exitRxHi (s : State) : State :=
  emit [.dwell .tSkh, .sk 0#1]
    { s with
      sk := 0#1
      bitCnt := s.bitCnt + 1#6
      ph := if (s.bitCnt + 1#6).toNat < Config.rxBits then .rxSetup else .csHold }

/-! ## Deselect -/

/-- R115: the device is deselected. -/
def exitCsHold (s : State) : State := emit [.dwell .tCsh, .cs 0#1] { s with cs := 0#1, ph := .csOff }

/-- R116: the transaction ends in success. -/
def exitCsOff (s : State) : State := emit [.dwell .tCsl] { completeFlags s with ph := .idle }

/-! ## One engine clock edge -/

/-- The step of the phase the engine is in (R100). In `IDLE` without an accepted start every register and pin holds (R114). -/
def phaseExit (s : State) : State :=
  match s.ph with
  | .idle => s
  | .settle => exitSettle s
  | .pollSel => exitPollSel s
  | .pollHi => exitPollHi s
  | .pollSample => exitPollSample s
  | .pollBackoff => exitPollBackoff s
  | .txSetup => exitTxSetup s
  | .txHi => exitTxHi s
  | .rxSetup => exitRxSetup s
  | .rxHi => exitRxHi s
  | .csHold => exitCsHold s
  | .csOff => exitCsOff s

/-- An engine clock edge with a command's word presented: accepted in `IDLE` (R103); in any other phase ignored and not
remembered, while the transaction in progress takes its own step (R114). -/
def presentWord (w : TxWord) (s : State) : State := if s.ph = .idle then acceptedStart w s else phaseExit s

/-- An edge with `start` = 1 and the reserved kind: refused in `IDLE` (R82, U1), ignored in any other phase (R114). -/
def presentReserved (s : State) : Host.Outcome State Fault Refusal :=
  if s.ph = .idle then .refused .reservedKind else .next (phaseExit s)

/-- R210: an edge with `rst` = 1. The pins, the flags and the phase take their reset values whatever else the edge would have
done; the registers the rule leaves unspecified take free values (log 6). The pin levels enter the trace (log 11). -/
def resetEdge (s : State) : State :=
  emit [.cs 0#1, .sk 0#1, .dout 0#1]
    { s with
      ph := .idle
      sr := Config.resetSr s.draws
      rx := Config.resetRx s.draws
      bitCnt := BitVec.ofNat 6 (Config.resetBitCnt s.draws).val
      retry := BitVec.ofNat 7 (Config.resetRetry s.draws).val
      wr := Config.resetWr s.draws
      cs := 0#1
      sk := 0#1
      dout := 0#1
      done := 0#1
      timeout := 0#1
      resultValid := 0#1
      result := Config.resetResult s.draws
      waitCnt := Config.resetWaitCnt s.draws
      draws := s.draws + 1 }

/-- The state an outcome goes on to, if it goes on. -/
def nextOf : Host.Outcome State Fault Refusal → Option State
  | .next s => some s
  | .fault _ => none
  | .refused _ => none

/-- What every edge adds around its effect: the host's signals move on. -/
def afterEdge : Host.Outcome State Fault Refusal → Host.Outcome State Fault Refusal
  | .next s => .next (advanceHost s)
  | .fault r => .fault r
  | .refused r => .refused r

end Sys2Proof.Machine
end

