-- ==== Sys2Proof/Machine/AddressedCommands.lean ====
section
/-! DEFINITION. The three commands with an address, opcodes 01, 10 and 11 (41_commands.md section 3), each presenting its transmit
word (R140). -/

namespace Sys2Proof.Machine

/-- R145. -/
def execWriteShort (addr : Addr) (data : Data) (s : State) : Host.Outcome State Fault Refusal :=
  .next (presentWord (encode (.writeShort addr data)) s)

/-- R146. -/
def execReadShort (addr : Addr) (s : State) : Host.Outcome State Fault Refusal :=
  .next (presentWord (encode (.readShort addr)) s)

/-- R147. -/
def execEraseShort (addr : Addr) (s : State) : Host.Outcome State Fault Refusal :=
  .next (presentWord (encode (.eraseShort addr)) s)

end Sys2Proof.Machine
end

