-- ==== Sys2Proof/Machine/SelectorCommands.lean ====
section
/-! DEFINITION. The four commands of opcode 00 (41_commands.md section 2). A command's meaning at an engine clock edge is to present its
transmit word: the transaction that follows is the same for every command (R140), and only the word differs. -/

namespace Sys2Proof.Machine

/-- R141. -/
def execWriteDisable (s : State) : Host.Outcome State Fault Refusal := .next (presentWord (encode .writeDisable) s)

/-- R142. -/
def execWriteAll (data : Data) (s : State) : Host.Outcome State Fault Refusal := .next (presentWord (encode (.writeAll data)) s)

/-- R143. -/
def execEraseAll (s : State) : Host.Outcome State Fault Refusal := .next (presentWord (encode .eraseAll) s)

/-- R144. -/
def execWriteEnable (s : State) : Host.Outcome State Fault Refusal := .next (presentWord (encode .writeEnable) s)

end Sys2Proof.Machine
end

