-- ==== Sys2Proof/Machine/Dispatch.lean ====
section
/-! DEFINITION. One arm per command: the engine clock edge at which the command stands on the port. -/

namespace Sys2Proof.Machine

def exec (i : Instr) (s : State) : Host.Outcome State Fault Refusal :=
  match i with
  -- opcode 00
  | .writeDisable => Sys2Proof.Machine.execWriteDisable s
  | .writeAll data => Sys2Proof.Machine.execWriteAll data s
  | .eraseAll => Sys2Proof.Machine.execEraseAll s
  | .writeEnable => Sys2Proof.Machine.execWriteEnable s
  -- opcodes 01, 10, 11
  | .writeShort addr data => Sys2Proof.Machine.execWriteShort addr data s
  | .readShort addr => Sys2Proof.Machine.execReadShort addr s
  | .eraseShort addr => Sys2Proof.Machine.execEraseShort addr s

end Sys2Proof.Machine
end

