-- ==== Sys2Proof/Machine/Step.lean ====
section
/-! DEFINITION. One step of the machine: one engine clock edge at which the engine leaves its phase (40_transaction.md R101). -/

namespace Sys2Proof.Machine

/-- Reset has priority over every step rule (R210); a command on the port is executed; otherwise the phase takes its step. After
the edge the host's signals move on. -/
def step (s : State) : Host.Outcome State Fault Refusal :=
  match presented s with
  | .reset => afterEdge (.next (resetEdge s))
  | .command i => afterEdge (exec i s)
  | .reserved => afterEdge (presentReserved s)
  | .nothing => afterEdge (.next (phaseExit s))

/-- The state with the command of a table word on the port, `start` = 1 and no reset: what the engine has for a fetch (R54, R64).
A word that is no command puts the reserved kind there. `wants_read` is no part of the word and stays (R148). -/
def State.withFetchWord (s : State) (nbits w : Nat) : State :=
  let c : PortCommand :=
    match decodeTableWord nbits w with
    | some i => encodePort i
    | none => { kind := 7#3, addr := 0#6, data := 0#16 }
  { s with port := { rst := 0#1, start := 1#1, command := c, wantsRead := s.port.wantsRead } }

end Sys2Proof.Machine
end

