-- ==== Sys2Proof/Machine/HostProgram.lean ====
section
/-! DEFINITION. The host's side of the command port: presenting one command and waiting for its end (41_commands.md R140), and programs, which are
lists of commands issued one after the other (30_encoding.md R88). The host keeps its duty: it starts only while the engine is
idle and drops `start` after the accepted edge (70_reset_and_hazards.md R217, log 20). -/

namespace Sys2Proof.Machine

/-- A command with its read flag, as `exec(c, wantsRead)` takes them (R140, R148). -/
structure Issue where
  instr : Instr
  wantsRead : Bit
deriving DecidableEq, Repr

/-- The port with a command presented. -/
def issuePort (x : Issue) : HostPort :=
  { rst := 0#1, start := 1#1, command := encodePort x.instr, wantsRead := x.wantsRead }

/-- The state with the command presented at the next edge and `start` dropped at the edge after it. -/
def present (x : Issue) (s : State) : State :=
  { s with port := issuePort x, upcoming := [{ issuePort x with start := 0#1 }] }

/-- Steps until the engine is idle again, at most `fuel` of them: the host waits for `DONE` (R140). -/
def waitIdle : Nat → State → Host.Outcome State Fault Refusal
  | 0, s => .next s
  | fuel + 1, s =>
    if s.ph = .idle then .next s
    else
      match step s with
      | .next t => waitIdle fuel t
      | .fault r => .fault r
      | .refused r => .refused r

/-- More steps than any transaction takes after its accepted start; the longest takes 544 (R118). -/
def transactFuel : Nat := 545

/-- One whole transaction as the host sees it (R140). -/
def runTransaction (x : Issue) (s : State) : Host.Outcome State Fault Refusal :=
  match step (present x s) with
  | .next t => waitIdle transactFuel t
  | .fault r => .fault r
  | .refused r => .refused r

/-- A program: its commands one after the other, each a whole transaction (R61, R88). -/
def runProgram : List Issue → State → Host.Outcome State Fault Refusal
  | [], s => .next s
  | x :: xs, s =>
    match runTransaction x s with
    | .next t => runProgram xs t
    | .fault r => .fault r
    | .refused r => .refused r

end Sys2Proof.Machine
end

