-- ==== Sys2Proof/Machine/RegisterStore.lean ====
section
/-! DEFINITION. The software's in-memory image of the device (48_surrounding_software.md R160 to R162): outside the engine and no part of its
state (10_state.md R37). -/

namespace Sys2Proof.Machine

/-- One register of the image: a value, and whether it has been read or written this session (R160, R162, decision D29). -/
structure StoreRegister where
  value : Data
  populated : Bool
deriving DecidableEq, Repr

/-- Exactly 64 registers, indexed by address (R161). -/
structure RegisterStore where
  registers : Vector StoreRegister 64
deriving DecidableEq, Repr

/-- A register at process start: unpopulated, with no defined value (R162, R216, log 17). -/
def freshRegister : StoreRegister := { value := Config.storeSentinel, populated := false }

/-- The store at process start (R160, R216). -/
def RegisterStore.fresh : RegisterStore := { registers := Vector.replicate 64 freshRegister }

/-- The register at an address; callers check the range (R161). -/
def RegisterStore.at (st : RegisterStore) (a : Addr) : StoreRegister := st.registers[a.toNat]

/-- `get(address)` (R161). -/
def RegisterStore.get (st : RegisterStore) (a : Addr) : Data := (st.at a).value

/-- `isPopulated(address)` (R161). -/
def RegisterStore.isPopulated (st : RegisterStore) (a : Addr) : Bool := (st.at a).populated

/-- `set(address, value)`: marks the register populated (R161, R162). -/
def RegisterStore.set (st : RegisterStore) (a : Addr) (v : Data) : RegisterStore :=
  { registers := st.registers.set a.toNat { value := v, populated := true } }

/-- `allPopulated()` (R161). -/
def RegisterStore.allPopulated (st : RegisterStore) : Bool :=
  (List.range Config.nRegs).all fun a => st.isPopulated (BitVec.ofNat 6 a)

end Sys2Proof.Machine
end

