-- ==== Sys2Proof/WellFormed.lean ====
section
/-! DEFINITION. What is well formed at each of the three places a command is written down.

The field widths of `Instr` are the port's (6 and 16 bits), so an out-of-range operand of a command cannot be written at all
(10_state.md R21, decision D26) and every `Instr` passes its check. The checks that can fail are the port's (kind 7, R82) and the
dispatcher's (`AddressOutOfRange`, `DataOutOfRange`, R174). -/

namespace Sys2Proof

/-- An address names a device register (R50, R55). -/
def addrInRange (a : Nat) : Bool := a < Config.nRegs

/-- A data operand fits a device register (R50, R174). -/
def dataInRange (d : Nat) : Bool := d < 2 ^ Config.regWidth

/-- A command's operands are in range: by their widths they always are (R21, R55, R74). -/
def Instr.wellFormed : Instr → Bool
  | .writeDisable => true
  | .writeAll d => dataInRange d.toNat
  | .eraseAll => true
  | .writeEnable => true
  | .writeShort a d => addrInRange a.toNat && dataInRange d.toNat
  | .readShort a => addrInRange a.toNat
  | .eraseShort a => addrInRange a.toNat

/-- `cmd_kind` 7 names no command and a host must never present it (R82). -/
def PortCommand.wellFormed (c : PortCommand) : Bool := c.kind != 7#3

/-- The dispatcher's validation before a call reaches the core (R174, R194). -/
def DispatcherCall.wellFormed : DispatcherCall → Bool
  | .read a => addrInRange a
  | .write a d => addrInRange a && dataInRange d
  | .erase a => addrInRange a
  | .eraseAll => true
  | .writeAll d => dataInRange d
  | .writeEnable => true
  | .writeDisable => true
  | .readAll => true

end Sys2Proof
end

