-- ==== Sys2Proof/Machine/Dispatcher.lean ====
section
/-! DEFINITION. The software dispatcher (30_encoding.md R89, 48_surrounding_software.md R173, R174): each user operation checked, expanded into
transactions, and its results put into the register store. -/

namespace Sys2Proof.Machine

/-- Why a dispatcher call fails (R174, R190). -/
inductive DispatchError where
  | addressOutOfRange
  | dataOutOfRange
  | deviceTimeout
  /-- The machine stopped under the call: no state and call give this. -/
  | stopped
deriving DecidableEq, Repr

/-- The dispatcher's check of a call's operands, the address first (R174, log 19). -/
def validateCall : DispatcherCall → Except DispatchError Unit
  | .read a => if addrInRange a then .ok () else .error .addressOutOfRange
  | .write a d =>
    if addrInRange a then (if dataInRange d then .ok () else .error .dataOutOfRange) else .error .addressOutOfRange
  | .erase a => if addrInRange a then .ok () else .error .addressOutOfRange
  | .eraseAll => .ok ()
  | .writeAll d => if dataInRange d then .ok () else .error .dataOutOfRange
  | .writeEnable => .ok ()
  | .writeDisable => .ok ()
  | .readAll => .ok ()

/-- The transactions a call stands for (R89, decisions D20, D27). -/
def expandCall : DispatcherCall → List Issue
  | .read a => [{ instr := .readShort (BitVec.ofNat 6 a), wantsRead := 1#1 }]
  | .write a d => [{ instr := .writeShort (BitVec.ofNat 6 a) (BitVec.ofNat 16 d), wantsRead := 0#1 }]
  | .erase a => [{ instr := .eraseShort (BitVec.ofNat 6 a), wantsRead := 0#1 }]
  | .eraseAll => [{ instr := .eraseAll, wantsRead := 0#1 }]
  | .writeAll d => [{ instr := .writeAll (BitVec.ofNat 16 d), wantsRead := 0#1 }]
  | .writeEnable => [{ instr := .writeEnable, wantsRead := 0#1 }]
  | .writeDisable => [{ instr := .writeDisable, wantsRead := 0#1 }]
  | .readAll => (List.range Config.nRegs).map fun a => { instr := .readShort (BitVec.ofNat 6 a), wantsRead := 1#1 }

/-- The store before a call's transactions: a local write intent is recorded before it is pushed to the device (R160). -/
def recordIntent (st : RegisterStore) : DispatcherCall → RegisterStore
  | .write a d => st.set (BitVec.ofNat 6 a) (BitVec.ofNat 16 d)
  | .read _ => st
  | .erase _ => st
  | .eraseAll => st
  | .writeAll _ => st
  | .writeEnable => st
  | .writeDisable => st
  | .readAll => st

/-- The store after a successful transaction: updated from a read result (R173). -/
def recordResult (st : RegisterStore) (x : Issue) (v : Option Data) : RegisterStore :=
  match x.instr, v with
  | .readShort a, some d => st.set a d
  | _, _ => st

/-- What a call leaves: the machine, the store, and the values read or the failure (R173). -/
structure DispatchEnd where
  machine : State
  store : RegisterStore
  values : Except DispatchError (List Data)

/-- The transactions of a call in order, stopping at the first `DeviceTimeout` (R89, decision D27). DESIGN CHOICE: a call that stops
part way returns the failure alone; the values already read are in the store and not in what it returns (log 19). -/
def runIssues : List Issue → State → RegisterStore → DispatchEnd
  | [], s, st => { machine := s, store := st, values := .ok [] }
  | x :: xs, s, st =>
    match runTransaction x s with
    | .next t =>
      match t.transactResult with
      | .success v =>
        let rest := runIssues xs t (recordResult st x v)
        { rest with values := rest.values.map fun vs => v.toList ++ vs }
      | .failed .deviceTimeout => { machine := t, store := st, values := .error .deviceTimeout }
      | .notEnded => { machine := t, store := st, values := .error .stopped }
    | .fault _ => { machine := s, store := st, values := .error .stopped }
    | .refused _ => { machine := s, store := st, values := .error .stopped }

/-- One dispatcher call: checked first, so that a bad operand never reaches the engine (R174). -/
def dispatch (c : DispatcherCall) (s : State) (st : RegisterStore) : DispatchEnd :=
  match validateCall c with
  | .ok _ => runIssues (expandCall c) s (recordIntent st c)
  | .error e => { machine := s, store := st, values := .error e }

end Sys2Proof.Machine
end

