-- ==== Sys2Proof/Machine/HexRecord.lean ====
section
/-! DEFINITION. The software's checksummed text records (48_surrounding_software.md R163 to R172): parse, serialize and the export guard. A line is a list
of characters. -/

namespace Sys2Proof.Machine

abbrev Line := List Char

/-! ## Hex digits -/

/-- The value of a hex digit, in either letter case. -/
def hexDigit (c : Char) : Option Nat :=
  let n := c.toNat
  if 48 ≤ n ∧ n ≤ 57 then some (n - 48)
  else if 65 ≤ n ∧ n ≤ 70 then some (n - 55)
  else if 97 ≤ n ∧ n ≤ 102 then some (n - 87)
  else none

/-- The digit of a value below 16, upper case (N15, log 18). -/
def hexChar (n : Nat) : Char := if n < 10 then Char.ofNat (48 + n) else Char.ofNat (55 + n)

/-- A field of hex digits, most significant first; none if a character is no hex digit. -/
def hexValue (cs : Line) : Option Nat :=
  cs.foldl (fun acc c => acc.bind fun v => (hexDigit c).map fun d => 16 * v + d) (some 0)

/-- The low `k` hex digits of a number, most significant first. -/
def hexField : Nat → Nat → Line
  | 0, _ => []
  | k + 1, n => hexField k (n / 16) ++ [hexChar (n % 16)]

/-! ## Records -/

/-- The fields of a data record `:LLAAAATTBBBBCC` (R163). -/
structure HexRecord where
  length : Nat
  address : Nat
  type : Nat
  byte1 : Nat
  byte2 : Nat
  checksum : Nat
deriving DecidableEq, Repr

/-- The sum of the fields, the address entering as a plain integer (R164). -/
def recordSum (r : HexRecord) : Nat := r.length + r.address + r.type + r.byte1 + r.byte2 + r.checksum

/-- When a data record is accepted (R164). -/
def recordAccepted (r : HexRecord) : Bool :=
  r.length == 2 && r.address < Config.nRegs && r.type == 0 && recordSum r % 256 == 0

/-- The value of a record, low byte first (R166). -/
def recordValue (r : HexRecord) : Data := BitVec.ofNat 16 (r.byte2 * 256 + r.byte1)

/-- A data record from the 14 characters after the colon (R163, R167). -/
def readRecord (cs : Line) : Option HexRecord := do
  let length ← hexValue (cs.take 2)
  let address ← hexValue ((cs.drop 2).take 4)
  let type ← hexValue ((cs.drop 6).take 2)
  let byte1 ← hexValue ((cs.drop 8).take 2)
  let byte2 ← hexValue ((cs.drop 10).take 2)
  let checksum ← hexValue ((cs.drop 12).take 2)
  some { length, address, type, byte1, byte2, checksum }

/-- The checksum that makes the sum zero modulo 256 (R164, R171). -/
def checksumFor (sum : Nat) : Nat := (256 - sum % 256) % 256

/-- The data record of a register (R171). -/
def recordOf (a : Nat) (v : Data) : HexRecord :=
  let byte1 := v.toNat % 256
  let byte2 := v.toNat / 256
  { length := 2, address := a, type := 0, byte1, byte2, checksum := checksumFor (2 + a + byte1 + byte2) }

/-- The characters of a data record (R163). -/
def writeRecord (r : HexRecord) : Line :=
  ':' :: hexField 2 r.length ++ hexField 4 r.address ++ hexField 2 r.type ++ hexField 2 r.byte1 ++ hexField 2 r.byte2 ++
    hexField 2 r.checksum

/-- The end-of-file record `:00000001FF` (R163). -/
def eofRecord : Line := [':', '0', '0', '0', '0', '0', '0', '0', '1', 'F', 'F']

/-! ## parse -/

/-- The five kinds of diagnostic (R170). -/
inductive DiagnosticKind where
  | nonHexCharacter
  | missingColonPrefix
  | wrongRecordLength
  | invalidDataRecord
  | invalidEofRecord
deriving DecidableEq, Repr

/-- A diagnostic with the 1-based line number and the raw line (R170). -/
structure ParseDiagnostic where
  kind : DiagnosticKind
  lineNumber : Nat
  text : Line
deriving DecidableEq, Repr

/-- Carriage return and line feed: the control characters taken to be stripped (R163, N22, log 18). -/
def isLineEnd (c : Char) : Bool := c.toNat == 13 || c.toNat == 10

/-- A line without its trailing control characters (R165 step 1). -/
def stripLine (l : Line) : Line := (l.reverse.dropWhile isLineEnd).reverse

/-- A letter in upper case, for the case-insensitive end-of-file record (R168). -/
def upperChar (c : Char) : Char := if 97 ≤ c.toNat ∧ c.toNat ≤ 122 then Char.ofNat (c.toNat - 32) else c

/-- What one line asks of the parser. -/
inductive LineAction where
  | store (a : Addr) (v : Data)
  | stop
  | diagnose (k : DiagnosticKind)
deriving DecidableEq, Repr

/-- A line of 15 characters (R167). -/
def dataLineAction (l : Line) : LineAction :=
  match readRecord (l.drop 1) with
  | some r => if recordAccepted r then .store (BitVec.ofNat 6 r.address) (recordValue r) else .diagnose .invalidDataRecord
  | none => .diagnose .invalidDataRecord

/-- One stripped line, checked in the order of R165: hex digits, colon, then by length (R167, R168, R169). -/
def lineAction (l : Line) : LineAction :=
  if (l.drop 1).any fun c => (hexDigit c).isNone then .diagnose .nonHexCharacter
  else if l.head? ≠ some ':' then .diagnose .missingColonPrefix
  else if l.length = 15 then dataLineAction l
  else if l.length = 11 then
    (if l.map upperChar = eofRecord then .stop else .diagnose .invalidEofRecord)
  else .diagnose .wrongRecordLength

/-- The lines from number `n` on, into a store; diagnostics in line order; a diagnostic does not stop the parse (R165, R170). -/
def parseFrom (n : Nat) (st : RegisterStore) : List Line → RegisterStore × List ParseDiagnostic
  | [] => (st, [])
  | l :: ls =>
    match lineAction (stripLine l) with
    | .store a v => parseFrom (n + 1) (st.set a v) ls
    | .stop => (st, [])
    | .diagnose k =>
      let rest := parseFrom (n + 1) st ls
      (rest.1, { kind := k, lineNumber := n, text := l } :: rest.2)

/-- `parse(lines)`, into a store with nothing populated (R165). -/
def parse (lines : List Line) : RegisterStore × List ParseDiagnostic := parseFrom 1 RegisterStore.fresh lines

/-! ## serialize -/

/-- `serialize(store)`: 64 data records in address order, whether populated or not, then the end-of-file record (R171). -/
def serialize (st : RegisterStore) : List Line :=
  ((List.range Config.nRegs).map fun a => writeRecord (recordOf a (st.get (BitVec.ofNat 6 a)))) ++ [eofRecord]

/-- The one export error (R172, R174). -/
inductive ExportError where
  | incompleteImage
deriving DecidableEq, Repr

/-- The export guard: no file unless all 64 registers are populated (R172). -/
def exportImage (st : RegisterStore) : Except ExportError (List Line) :=
  if st.allPopulated then .ok (serialize st) else .error .incompleteImage

end Sys2Proof.Machine
end

