-- ==== Sys2Proof/Machine/Trace.lean ====
section
/-! DEFINITION. What a pin trace says (00_scope.md R10): the levels it leaves on the lines, when two traces are the same behaviour, and
the counts of 40_transaction.md R118. -/

namespace Sys2Proof.Machine

/-- The levels of the three output lines (R28). -/
structure Lines where
  cs : Bit
  sk : Bit
  dout : Bit
deriving DecidableEq, Repr

/-- The output lines of a state. -/
def State.lines (s : State) : Lines := { cs := s.cs, sk := s.sk, dout := s.dout }

/-- The lines right after reset (R38, R210). -/
def resetLines : Lines := { cs := 0#1, sk := 0#1, dout := 0#1 }

/-- The lines after one event. -/
def applyEvent (l : Lines) : PinEvent → Lines
  | .cs v => { l with cs := v }
  | .sk v => { l with sk := v }
  | .dout v => { l with dout := v }
  | .sample _ => l
  | .dwell _ => l

/-- The lines after a trace. -/
def linesAfter (l : Lines) (trace : List PinEvent) : Lines := trace.foldl applyEvent l

/-- A drive event that does not change the line's level (R10). -/
def isIdleDrive (l : Lines) : PinEvent → Bool
  | .cs v => l.cs == v
  | .sk v => l.sk == v
  | .dout v => l.dout == v
  | .sample _ => false
  | .dwell _ => false

/-- A trace without the drive events that change nothing, started from given lines (R10). -/
def withoutIdleDrives (l : Lines) : List PinEvent → List PinEvent
  | [] => []
  | e :: es => if isIdleDrive l e then withoutIdleDrives l es else e :: withoutIdleDrives (applyEvent l e) es

/-- Two traces from the same lines are the same behaviour (R10). -/
def sameBehaviour (l : Lines) (a b : List PinEvent) : Bool := withoutIdleDrives l a == withoutIdleDrives l b

/-- Whether an event is a sample of `DIN`. -/
def isSample : PinEvent → Bool
  | .sample _ => true
  | _ => false

/-- Whether an event is a minimum wait. -/
def isDwell : PinEvent → Bool
  | .dwell _ => true
  | _ => false

/-- Each event of a trace with the levels of the lines before it. -/
def withLevels (l : Lines) : List PinEvent → List (Lines × PinEvent)
  | [] => []
  | e :: es => (l, e) :: withLevels (applyEvent l e) es

/-- An event that counts where it stands (R10): a sample, a dwell, or a drive that changes a level. -/
def tells (p : Lines × PinEvent) : Bool := isSample p.2 || isDwell p.2 || applyEvent p.1 p.2 != p.1

/-- How often the clock line is driven high: clock pulses (R118). -/
def clockPulses (trace : List PinEvent) : Nat := trace.countP fun e => e == .sk 1#1

/-- How often the device is selected (R118). -/
def selects (trace : List PinEvent) : Nat := trace.countP fun e => e == .cs 1#1

/-- Whether an event drives `DOUT`. -/
def isDoutDrive : PinEvent → Bool
  | .dout _ => true
  | _ => false

/-- Samples of `DIN` (R118). -/
def dinSamples (trace : List PinEvent) : Nat := trace.countP isSample

/-- Writes of `DOUT` (R118). -/
def doutWrites (trace : List PinEvent) : Nat := trace.countP isDoutDrive

/-- The bits a device takes from `DOUT`, one per clock pulse while selected, in time order (R51). DESIGN CHOICE: the spec does not say at
which clock edge the device takes the bit (R51, N11); here it is the line's level at the rise (log 24). -/
def bitsTaken (l : Lines) : List PinEvent → List Bit
  | [] => []
  | e :: es =>
    if e == .sk 1#1 && l.cs == 1#1 then l.dout :: bitsTaken (applyEvent l e) es else bitsTaken (applyEvent l e) es

end Sys2Proof.Machine
end

