-- ==== Sys2Proof/Machine/Transact.lean ====
section
/-! DEFINITION. The transaction as one function (40_transaction.md R117): from a transmit word, a read bit and the device's answers to
a pin trace, a result and the counts of R118. It is written without the step rules, so that the step machine can be proved equal
to it. -/

namespace Sys2Proof.Machine

/-- A transaction's command and read bit on the wire. -/
structure Transaction where
  word : TxWord
  wantsRead : Bit
deriving DecidableEq, Repr

/-- The index of the first ready answer among the first `RETRY_BUDGET`, which is the number of busy iterations before it; none if
all of them say busy (R117). -/
def busyBefore (answers : Nat → Bit) : Option Nat :=
  (List.range Config.retryBudget).find? fun k => answers k == Config.readyLevel

/-- One poll iteration up to its sample (R117). -/
def pollEvents (p : Bit) : List PinEvent :=
  [.cs 1#1, .dwell .tCss, .sk 1#1, .dwell .tSkh, .sk 0#1, .sample p]

/-- One busy iteration (R117). -/
def busyEvents (p : Bit) : List PinEvent := pollEvents p ++ [.cs 0#1, .dwell .tPoll]

/-- The first `b` iterations, all busy. -/
def busyTrace (answers : Nat → Bit) (b : Nat) : List PinEvent := (List.range b).flatMap fun k => busyEvents (answers k)

/-- One bit sent (R117). -/
def sendEvents (v : Bit) : List PinEvent :=
  [.dout v, .dwell .tSetup, .sk 1#1, .dwell .tSkh, .sk 0#1]

/-- The 32 bits of the word, bit 31 first (R57, R117). -/
def sendTrace (w : TxWord) : List PinEvent := (wireBits w).flatMap sendEvents

/-- One bit clocked in (R117). -/
def receiveEvents (r : Bit) : List PinEvent :=
  [.dwell .tSetup, .sample r, .sk 1#1, .dwell .tSkh, .sk 0#1]

/-- The read phase: `DOUT` low, then 17 bits (R117). -/
def receiveTrace (r : Nat → Bit) : List PinEvent :=
  .dout 0#1 :: (List.range Config.rxBits).flatMap fun j => receiveEvents (r j)

/-- `r2 ‖ r3 ‖ ... ‖ r17`: the sixteen bits after the dummy, the first of them in bit 15 (R87, R117). Here `r 0` is the dummy. -/
def readValue (r : Nat → Bit) : Data :=
  BitVec.ofNat 16 ((List.range Config.regWidth).foldl (fun acc j => 2 * acc + (r (j + 1)).toNat) 0)

/-- How a transaction ends (R117). -/
structure TransactionEnd where
  /-- Every one of the `RETRY_BUDGET` answers said busy. -/
  timedOut : Bool
  /-- Busy iterations. -/
  busy : Nat
  /-- The value read, when one was wanted and the transaction did not time out. -/
  value : Option Data
  /-- The pin trace, from the accepted start to the end. -/
  trace : List PinEvent
  /-- Answers of the device asked for. -/
  samples : Nat
  /-- Steps of the machine after the accepted start. -/
  steps : Nat
deriving DecidableEq, Repr

/-- The big-step function of R117. -/
def transact (t : Transaction) (answers : Nat → Bit) : TransactionEnd :=
  match busyBefore answers with
  | none =>
    { timedOut := true
      busy := Config.retryBudget
      value := none
      trace := [.dout 0#1, .sk 0#1, .dwell .tSettle] ++ busyTrace answers Config.retryBudget
      samples := Config.retryBudget
      steps := 1 + 4 * Config.retryBudget }
  | some b =>
    let r := fun j => answers (b + 1 + j)
    { timedOut := false
      busy := b
      value := if t.wantsRead = 1#1 then some (readValue r) else none
      trace :=
        [.dout 0#1, .sk 0#1, .dwell .tSettle] ++ busyTrace answers b ++ pollEvents (answers b) ++ sendTrace t.word ++
          (if t.wantsRead = 1#1 then receiveTrace r else []) ++ [.dwell .tCsh, .cs 0#1, .dwell .tCsl]
      samples := if t.wantsRead = 1#1 then b + 1 + Config.rxBits else b + 1
      steps := if t.wantsRead = 1#1 then 104 + 4 * b else 70 + 4 * b }

end Sys2Proof.Machine
end

