-- ==== Sys2Proof/Machine/Timing.lean ====
section
/-! DEFINITION. Time: the minimum dwells (70_reset_and_hazards.md R225), the durations they add up to (R226), and the clocked block, in
which `WAITCNT` keeps the engine in each phase for its minimum dwell (10_state.md R33, R227). No rule of the untimed machine
depends on any of it (40_transaction.md R102). -/

namespace Sys2Proof.Machine

/-- The named minimum, in nanoseconds (R225). -/
def dwellNs : Dwell → Nat
  | .tSettle => Config.tSettleNs
  | .tCss => Config.tCssNs
  | .tSkh => Config.tSkhNs
  | .tPoll => Config.tPollNs
  | .tSetup => Config.tSetupNs
  | .tCsh => Config.tCshNs
  | .tCsl => Config.tCslNs

/-- The minimum dwell of each phase (R22, R225); none for `IDLE` and `POLL_SAMPLE`. -/
def phaseDwell : Phase → Option Dwell
  | .idle => none
  | .settle => some .tSettle
  | .pollSel => some .tCss
  | .pollHi => some .tSkh
  | .pollSample => none
  | .pollBackoff => some .tPoll
  | .txSetup => some .tSetup
  | .txHi => some .tSkh
  | .rxSetup => some .tSetup
  | .rxHi => some .tSkh
  | .csHold => some .tCsh
  | .csOff => some .tCsl

/-- `max(1, ceil(T × F_CLK))` engine clocks (R227), for a time in nanoseconds and a frequency in hertz. -/
def clocksFor (ns hz : Nat) : Nat := max 1 ((ns * hz + 999999999) / 1000000000)

/-- The engine clocks a phase lasts at least, at a given clock frequency (R33, R101). -/
def phaseClocks (hz : Nat) (p : Phase) : Nat :=
  match phaseDwell p with
  | some d => clocksFor (dwellNs d) hz
  | none => 1

/-- The minimum duration of a trace: the sum of its dwells (R226). -/
def minimumNs (trace : List PinEvent) : Nat :=
  (trace.map fun e =>
    match e with
    | .dwell d => dwellNs d
    | _ => 0).sum

/-- Entering a phase loads `WAITCNT` (R33). -/
def loadWait (before : Phase) (s : State) : State :=
  if s.ph = before then s else { s with waitCnt := phaseClocks Config.fClkHz s.ph }

/-- A phase exit of the clocked block: the step, with `WAITCNT` loaded for the phase entered. -/
def timedExit (s : State) : Host.Outcome State Fault Refusal :=
  match step s with
  | .next t => .next (loadWait s.ph t)
  | .fault r => .fault r
  | .refused r => .refused r

/-- One engine clock inside a phase whose dwell is not over: `WAITCNT` counts down, everything else holds (R28, R33). -/
def waitOneClock (s : State) : State := advanceHost { s with waitCnt := s.waitCnt - 1 }

/-- One engine clock of the clocked block (R33): reset first (R210); a phase other than `IDLE` exits when its count reaches zero;
`IDLE` looks at the port at every clock (R103, R114). -/
def clock (s : State) : Host.Outcome State Fault Refusal :=
  if s.port.rst = 1#1 then step s
  else if s.ph ≠ .idle ∧ 1 < s.waitCnt then .next (waitOneClock s)
  else timedExit s

/-- `k` engine clocks. -/
def runClocks : Nat → State → Host.Outcome State Fault Refusal
  | 0, s => .next s
  | k + 1, s =>
    match clock s with
    | .next t => runClocks k t
    | .fault r => .fault r
    | .refused r => .refused r

end Sys2Proof.Machine
end

