-- ==== Sys2Proof/Safety.lean ====
section
/-! DEFINITION. What claims are stated in: the invariants of 10_state.md R39 with the phase facts that make them inductive, the host's duties
(70_reset_and_hazards.md R217), and runs without reset. -/

namespace Sys2Proof.Machine

/-- R39b: the phases in which the device is selected. -/
def Phase.selected : Phase → Bool
  | .pollSel | .pollHi | .pollSample | .txSetup | .txHi | .rxSetup | .rxHi | .csHold => true
  | .idle | .settle | .pollBackoff | .csOff => false

/-- R39c: the phases in which the clock line is high. -/
def Phase.clockHigh : Phase → Bool
  | .pollHi | .txHi | .rxHi => true
  | .idle | .settle | .pollSel | .pollSample | .pollBackoff | .txSetup | .rxSetup | .csHold | .csOff => false

/-- R39d: the phases in which `DOUT` is low. -/
def Phase.doutLow : Phase → Bool
  | .settle | .pollSel | .pollHi | .pollSample | .pollBackoff | .rxSetup | .rxHi => true
  | .idle | .txSetup | .txHi | .csHold | .csOff => false

/-- R39b: `CS` = 1 exactly in the selected phases; with R39c this gives R39a. -/
abbrev csMatchesPhase (s : State) : Prop := s.cs = 1#1 ↔ s.ph.selected = true

/-- R39c: `SK` = 1 exactly in the clock-high phases. -/
abbrev skMatchesPhase (s : State) : Prop := s.sk = 1#1 ↔ s.ph.clockHigh = true

/-- R39d. -/
abbrev doutLowInPhase (s : State) : Prop := s.ph.doutLow = true → s.dout = 0#1

/-- R39e. -/
abbrev countersBounded (s : State) : Prop := s.retry.toNat ≤ Config.retryBudget ∧ s.bitCnt.toNat ≤ Config.txWidth

/-- R39f. -/
abbrev flagsConsistent (s : State) : Prop :=
  (s.timeout = 1#1 → s.done = 1#1 ∧ s.resultValid = 0#1) ∧ (s.resultValid = 1#1 → s.done = 1#1)

/-- R39, all of it. -/
abbrev EngineInvariant (s : State) : Prop :=
  csMatchesPhase s ∧ skMatchesPhase s ∧ doutLowInPhase s ∧ countersBounded s ∧ flagsConsistent s

/-- The counters inside the phases that count: what keeps R39e inductive (R25, R26). -/
abbrev countersInPhase (s : State) : Prop :=
  ((s.ph = .pollSel ∨ s.ph = .pollHi ∨ s.ph = .pollSample) → s.retry.toNat < Config.retryBudget) ∧
  ((s.ph = .txSetup ∨ s.ph = .txHi) → s.bitCnt.toNat < Config.txWidth) ∧
  ((s.ph = .rxSetup ∨ s.ph = .rxHi) → s.bitCnt.toNat < Config.rxBits) ∧
  (s.ph = .settle → s.retry = 0#7)

/-- During a transaction all three flags are 0 (R218). -/
abbrev flagsClearWhileBusy (s : State) : Prop :=
  s.ph ≠ .idle → s.done = 0#1 ∧ s.timeout = 0#1 ∧ s.resultValid = 0#1

/-- In the transmit phases `DOUT` holds the bit to send, `SR[31]` (R23, R110). -/
abbrev doutHoldsNextBit (s : State) : Prop := (s.ph = .txSetup ∨ s.ph = .txHi) → s.dout = bitAt s.sr 31

/-- The read phase is entered only when a read is wanted (R111). -/
abbrev readOnlyIfWanted (s : State) : Prop := (s.ph = .rxSetup ∨ s.ph = .rxHi) → s.wr = 1#1

/-- The invariant every step keeps: R39 and the phase facts. -/
abbrev MachineInvariant (s : State) : Prop :=
  EngineInvariant s ∧ countersInPhase s ∧ flagsClearWhileBusy s ∧ doutHoldsNextBit s ∧ readOnlyIfWanted s

/-- The pin trace tells the truth: the lines it leaves are the lines' levels (R10, R28). -/
abbrev TraceMatchesLines (s : State) : Prop := linesAfter resetLines s.trace = s.lines

/-- No reset at the next edge or at any later one the host has scripted. -/
abbrev NoReset (s : State) : Prop := s.port.rst = 0#1 ∧ ∀ p ∈ s.upcoming, p.rst = 0#1

/-- The host's duty at this edge (R82, R217): `start` only while the engine is idle, and never with the reserved kind. -/
abbrev HostDuty (s : State) : Prop := s.port.start = 1#1 → s.ph = .idle ∧ s.port.command.kind ≠ 7#3

/-- `k` steps of the machine. -/
def runSteps (k : Nat) (s : State) : Host.Outcome State Fault Refusal := Host.Core.run Sys2Proof.core k s

/-- A command stands on the port to be accepted at this edge (R103): the engine idle, `start` = 1, no reset. -/
abbrev Accepts (s : State) (i : Instr) : Prop :=
  s.ph = .idle ∧ s.port.rst = 0#1 ∧ s.port.start = 1#1 ∧ decodePort s.port.command = .command i

/-- The state R103 leaves, written out from the rule: what it writes, what it adds to the trace, and nothing else. -/
def startedWith (w : TxWord) (s : State) : State :=
  { s with
    sr := w
    wr := s.port.wantsRead
    retry := 0#7
    done := 0#1
    timeout := 0#1
    resultValid := 0#1
    dout := 0#1
    sk := 0#1
    ph := .settle
    trace := s.trace ++ [.dout 0#1, .sk 0#1] }

/-- The transaction that starts from `s` with the word `w`, by the big-step function of R117 on the device's answers. -/
def transactionFrom (w : TxWord) (s : State) : TransactionEnd := transact { word := w, wantsRead := s.port.wantsRead } s.answer

/-- `t` is the end of the transaction `r` that started from `s` (R117, R119): idle and deselected, the clock low, the flags and the
result as `r` says, `RESULT` untouched where nothing was read, the trace `r`'s, and the device's answers used up as far as `r` asked. -/
structure EndsAs (s t : State) (r : TransactionEnd) : Prop where
  ph : t.ph = .idle
  cs : t.cs = 0#1
  sk : t.sk = 0#1
  retry : t.retry.toNat = r.busy
  status : t.transactResult = if r.timedOut then .failed .deviceTimeout else .success r.value
  resultValid : t.resultValid = if r.value.isSome then 1#1 else 0#1
  result : t.result = r.value.getD s.result
  trace : t.trace = s.trace ++ r.trace
  answers : ∀ k, t.answer k = s.answer (r.samples + k)

/-- The command's own effect, whole (R140): at an accepted edge its word is latched, and the steps that follow are the transaction of
that word, which ends after exactly the steps the big-step function counts. -/
def RunsTransaction (i : Instr) (w : TxWord) : Prop :=
  ∀ s : State, s.ph = .idle → NoReset s →
    exec i s = .next (startedWith w s) ∧
    ∃ t, runSteps (transactionFrom w s).steps (startedWith w s) = .next t ∧ EndsAs s t (transactionFrom w s)

end Sys2Proof.Machine
end

