-- ==== Sys2Proof/Certificates/Slice0/Obligations.lean ====
section
/-! DEFINITION. The statements for the provers, from the numbered rules of spec/. -/

open Sys2Proof Sys2Proof.Machine

/-! ## Encoding -/

/-- Decode and encode agree on every command and every operand value (R79, R85). -/
def Obligations.DecodeEncodeRoundTrip : Prop := ∀ i : Instr, decode (encode i) = .command i

/-- A word that decodes is the word of the command it decodes to: each of R79's words has one meaning and no other word has any (R85). -/
def Obligations.DecodedWordsAreEncodings : Prop := ∀ (w : TxWord) (i : Instr), decode w = .command i → encode i = w

/-- The 32 bits on the wire, bit 31 first, decode to the command that sent them (R57, R83, R85). -/
def Obligations.WireBitsRoundTrip : Prop :=
  ∀ i : Instr, (wireBits (encode i)).length = 32 ∧ decodeWire (wireBits (encode i)) = .command i

/-- R79's last column: the transmit word of every command as a number. It rests on the spec's own decisions D8, D9, D10 (log 8). -/
def Obligations.TransmitWordsAsNumbers : Prop :=
  (encode .writeDisable).toNat = 0x00000100 ∧
  (∀ d : Data, (encode (.writeAll d)).toNat = 0x01010000 + d.toNat) ∧
  (encode .eraseAll).toNat = 0x00000102 ∧
  (encode .writeEnable).toNat = 0x00000103 ∧
  (∀ (a : Addr) (d : Data), (encode (.writeShort a d)).toNat = 0x01400000 + a.toNat * 0x10000 + d.toNat) ∧
  (∀ a : Addr, (encode (.readShort a)).toNat = 0x00000180 + a.toNat) ∧
  (∀ a : Addr, (encode (.eraseShort a)).toNat = 0x000001C0 + a.toNat)

/-- R84 (derived there; decisions D8, D10): the most significant 1 of every word is its start bit, bit 24 in format D and bit 8 in format N. -/
def Obligations.StartBitIsHighestOne : Prop :=
  ∀ i : Instr,
    let p := if (dataOperand i).isSome then 24 else 8
    (encode i).getLsbD p = true ∧ ∀ j, p < j → (encode i).getLsbD j = false

/-- R81 (the spec's decision D11): operands a command does not carry do not reach its word. -/
def Obligations.UncarriedOperandsIgnored : Prop :=
  ∀ (k : BitVec 3) (a a' : Addr) (d d' : Data),
    (k.toNat ≤ 3 → portWord { kind := k, addr := a, data := d } = portWord { kind := k, addr := a', data := d }) ∧
    ((k = 0#3 ∨ k = 2#3 ∨ k = 3#3 ∨ k = 5#3 ∨ k = 6#3) →
      portWord { kind := k, addr := a, data := d } = portWord { kind := k, addr := a, data := d' })

/-- R72 (the spec's decision D3): the kind codes with their opcodes and operand fields, and kind 7 reserved. -/
def Obligations.KindCodesOfThePort : Prop :=
  ∀ (k : BitVec 3) (a : Addr) (d : Data),
    (k.toNat ≤ 3 → ∃ i, decodePort { kind := k, addr := a, data := d } = .command i ∧ opcodeOf i = 0#2 ∧
      fieldOf Config.subopShift i = selectorField Config.subopShift (k.extractLsb' 0 2)) ∧
    (4 ≤ k.toNat → k.toNat ≤ 6 → ∃ i, decodePort { kind := k, addr := a, data := d } = .command i ∧
      opcodeOf i = k.extractLsb' 0 2 + 1#2 ∧ fieldOf Config.subopShift i = a) ∧
    (k = 7#3 → decodePort { kind := k, addr := a, data := d } = .rejected .reservedKind)

/-- A few words written out from R79 (decisions D8 to D10) decode to the commands they stand for. -/
def Obligations.WordsOfTheTableDecode : Prop :=
  decode 0b00000000000000000000000100000011#32 = .command .writeEnable ∧
  decode 0b00000001000000011010010101011010#32 = .command (.writeAll 0xA55A#16) ∧
  decode 0b00000001010001010001001000110100#32 = .command (.writeShort 5#6 0x1234#16) ∧
  decode 0b00000000000000000000000110000101#32 = .command (.readShort 5#6) ∧
  decode 0b00000000000000000000000111111111#32 = .command (.eraseShort 63#6) ∧
  decode 0b00000001000000000000000000000000#32 = .rejected .notACommandWord

/-! ## Reset and the idle engine -/

/-- R38: the values the spec gives for reset (its decision D15). -/
def Obligations.ResetValues : Prop :=
  State.reset.ph = .idle ∧ State.reset.cs = 0#1 ∧ State.reset.sk = 0#1 ∧ State.reset.dout = 0#1 ∧
  State.reset.done = 0#1 ∧ State.reset.timeout = 0#1 ∧ State.reset.resultValid = 0#1 ∧ State.reset.busy = 0#1

/-- R210 (the spec's decision D15): an edge with `rst` = 1 gives the reset values whatever else stands on the port and whatever the engine was doing. The
host's signals move on after the edge (log 2, the model's own). -/
def Obligations.ResetOverridesEveryEdge : Prop :=
  ∀ s : State, s.port.rst = 1#1 → ∃ t, step s = .next (advanceHost t) ∧
    t.ph = .idle ∧ t.cs = 0#1 ∧ t.sk = 0#1 ∧ t.dout = 0#1 ∧ t.done = 0#1 ∧ t.timeout = 0#1 ∧ t.resultValid = 0#1 ∧
    t.port = s.port ∧ t.upcoming = s.upcoming ∧ t.answers = s.answers

/-- R114 (decision D5): `IDLE` without an accepted start changes nothing. And a `start` in any other phase is ignored: what a busy step does is the
same for every level of the host's signals (with `rst` = 0), and every command on the port does the same. -/
def Obligations.StartOnlyCountsInIdle : Prop :=
  (∀ s : State, s.ph = .idle → s.port.rst = 0#1 → s.port.start = 0#1 → step s = .next (advanceHost s)) ∧
  (∀ (s : State) (i j : Instr), s.ph ≠ .idle → exec i s = exec j s) ∧
  (∀ (s : State) (p : HostPort), s.ph ≠ .idle → s.port.rst = 0#1 → p.rst = 0#1 →
    ∃ t t', step s = .next t ∧ step { s with port := p } = .next t' ∧ { t' with port := t.port } = t)

/-- R82 (decision D4): a start with the reserved kind is refused in `IDLE`; it is no accepted start. -/
def Obligations.ReservedKindRefused : Prop :=
  ∀ s : State, s.ph = .idle → s.port.rst = 0#1 → s.port.start = 1#1 → s.port.command.kind = 7#3 →
    step s = .refused .reservedKind

/-- R101: the engine is never stuck. No step faults, and the one refusal is the reserved kind presented in `IDLE`,
against the host's duty (R82, R217). -/
def Obligations.StepStopsOnlyOnReservedKind : Prop :=
  ∀ s : State, (∃ t, step s = .next t) ∨
    (step s = .refused .reservedKind ∧ s.ph = .idle ∧ s.port.rst = 0#1 ∧ s.port.start = 1#1 ∧ s.port.command.kind = 7#3 ∧
      ¬ HostDuty s)

/-! ## Commands -/

/-- A step runs the command the port's decoder reads: the step is `exec` of it, and then the host's signals move on (log 2, the
model's own). -/
def Obligations.StepRunsThePortsCommand : Prop :=
  ∀ (s : State) (i : Instr), s.port.rst = 0#1 → s.port.start = 1#1 → decodePort s.port.command = .command i →
    ∃ t, exec i s = .next t ∧ step s = .next (advanceHost t)

/-- The word of a table row, put where the next step takes its command, is what that step runs (log 13, the model's own way of placing
a command). -/
def Obligations.StepRunsThePlacedWord : Prop :=
  ∀ (s : State) (i : Instr), s.ph = .idle →
    step (s.withFetchWord 32 (encode i).toNat) =
      .next (advanceHost (startedWith (encode i) (s.withFetchWord 32 (encode i).toNat)))

/-- R103: what an accepted start writes, for every command. The order of its two trace events is the spec's decision D14, the word
rests on D8 to D10, and the host's signals moving on is the model's own (log 2). -/
def Obligations.AcceptedStartWrites : Prop :=
  ∀ (s : State) (i : Instr), Accepts s i → step s = .next (advanceHost (startedWith (encode i) s))

/-- R141 to R144 with R103: each of the four opcode-00 commands completes its edge in `IDLE` with its own word latched
(the words rest on decisions D8, D9, D10). -/
def Obligations.SelectorCommandsStart : Prop :=
  ∀ s : State, s.ph = .idle →
    exec .writeDisable s = .next (startedWith 0x00000100#32 s) ∧
    (∀ d : Data, exec (.writeAll d) s = .next (startedWith (0#7 ++ 0b100000001#9 ++ d) s)) ∧
    exec .eraseAll s = .next (startedWith 0x00000102#32 s) ∧
    exec .writeEnable s = .next (startedWith 0x00000103#32 s)

/-- R145 to R147 with R103: each of the three addressed commands completes its edge in `IDLE` with its own word latched
(the words rest on decisions D8, D10). -/
def Obligations.AddressedCommandsStart : Prop :=
  ∀ (s : State) (a : Addr), s.ph = .idle →
    (∀ d : Data, exec (.writeShort a d) s = .next (startedWith (0#7 ++ 0b101#3 ++ a ++ d) s)) ∧
    exec (.readShort a) s = .next (startedWith ((0b110#3 ++ a).setWidth 32) s) ∧
    exec (.eraseShort a) s = .next (startedWith ((0b111#3 ++ a).setWidth 32) s)

/-- The frame of every command's edge in `IDLE`: the registers, the pin, the result and the inputs it leaves alone. The engine has no
memory. -/
def Obligations.CommandStartFrame : Prop :=
  ∀ (i : Instr) (s t : State), s.ph = .idle → exec i s = .next t →
    t.cs = s.cs ∧ t.rx = s.rx ∧ t.bitCnt = s.bitCnt ∧ t.result = s.result ∧ t.waitCnt = s.waitCnt ∧
    t.port = s.port ∧ t.upcoming = s.upcoming ∧ t.answers = s.answers ∧ t.draws = s.draws

/-- R141 to R144 whole: each command's word is latched, and the transaction of that word runs to its end. The words rest on the spec's
decisions D8, D9, D10. -/
def Obligations.SelectorCommandsRunTheirTransactions : Prop :=
  RunsTransaction .writeDisable 0x00000100#32 ∧
  (∀ d : Data, RunsTransaction (.writeAll d) (0#7 ++ 0b100000001#9 ++ d)) ∧
  RunsTransaction .eraseAll 0x00000102#32 ∧
  RunsTransaction .writeEnable 0x00000103#32

/-- R145 to R147 whole: each command's word is latched, and the transaction of that word runs to its end. The words rest on the spec's
decisions D8, D10. -/
def Obligations.AddressedCommandsRunTheirTransactions : Prop :=
  ∀ a : Addr,
    (∀ d : Data, RunsTransaction (.writeShort a d) (0#7 ++ 0b101#3 ++ a ++ d)) ∧
    RunsTransaction (.readShort a) ((0b110#3 ++ a).setWidth 32) ∧
    RunsTransaction (.eraseShort a) ((0b111#3 ++ a).setWidth 32)

/-! ## The phase rules -/

/-- R100: the table of phase transitions. An idle edge with the reserved kind is left to `ReservedKindRefused`. -/
def Obligations.PhaseTransitionTable : Prop :=
  ∀ s : State, s.port.rst = 0#1 → ¬ (s.ph = .idle ∧ s.port.start = 1#1 ∧ s.port.command.kind = 7#3) →
    ∃ t, step s = .next t ∧
      (s.ph = .idle → s.port.start = 1#1 → t.ph = .settle) ∧
      (s.ph = .idle → s.port.start = 0#1 → t.ph = .idle) ∧
      (s.ph = .settle → t.ph = .pollSel) ∧
      (s.ph = .pollSel → t.ph = .pollHi) ∧
      (s.ph = .pollHi → t.ph = .pollSample) ∧
      (s.ph = .pollSample → s.answer 0 = Config.readyLevel → t.ph = .txSetup) ∧
      (s.ph = .pollSample → s.answer 0 ≠ Config.readyLevel → t.ph = .pollBackoff) ∧
      (s.ph = .pollBackoff → s.retry.toNat < 111 → t.ph = .pollSel) ∧
      (s.ph = .pollBackoff → s.retry.toNat = 111 → t.ph = .idle ∧ t.timeout = 1#1) ∧
      (s.ph = .txSetup → t.ph = .txHi) ∧
      (s.ph = .txHi → s.bitCnt.toNat + 1 < 32 → t.ph = .txSetup) ∧
      (s.ph = .txHi → s.bitCnt.toNat + 1 = 32 → s.wr = 1#1 → t.ph = .rxSetup) ∧
      (s.ph = .txHi → s.bitCnt.toNat + 1 = 32 → s.wr = 0#1 → t.ph = .csHold) ∧
      (s.ph = .rxSetup → t.ph = .rxHi) ∧
      (s.ph = .rxHi → s.bitCnt.toNat + 1 < 17 → t.ph = .rxSetup) ∧
      (s.ph = .rxHi → s.bitCnt.toNat + 1 = 17 → t.ph = .csHold) ∧
      (s.ph = .csHold → t.ph = .csOff) ∧
      (s.ph = .csOff → t.ph = .idle)

/-- R104, R105, R106: select, poll pulse up, poll pulse down, each with its trace and nothing else changed. The `T_SKH`
of the poll pulse is the spec's decision D12; the host's signals moving on after each edge is the model's own (log 2), here and below. -/
def Obligations.SelectAndPollPulse : Prop :=
  ∀ s : State, s.port.rst = 0#1 →
    (s.ph = .settle →
      step s = .next (advanceHost { s with cs := 1#1, ph := .pollSel, trace := s.trace ++ [.dwell .tSettle, .cs 1#1] })) ∧
    (s.ph = .pollSel →
      step s = .next (advanceHost { s with sk := 1#1, ph := .pollHi, trace := s.trace ++ [.dwell .tCss, .sk 1#1] })) ∧
    (s.ph = .pollHi →
      step s = .next (advanceHost { s with sk := 0#1, ph := .pollSample, trace := s.trace ++ [.dwell .tSkh, .sk 0#1] }))

/-- R107 and R108: the status sample. `u` has one answer fewer to come than `s` and is `s` in everything else; how the device's answers
stand in the state is the model's own (log 3). -/
def Obligations.StatusSample : Prop :=
  ∀ s : State, s.port.rst = 0#1 → s.ph = .pollSample →
    ∃ u : State, (∀ k, u.answer k = s.answer (k + 1)) ∧ { u with answers := s.answers, draws := s.draws } = s ∧
      (s.answer 0 = Config.readyLevel →
        step s = .next (advanceHost
          { u with
            bitCnt := 0#6, dout := bitAt s.sr 31, ph := .txSetup,
            trace := s.trace ++ [.sample (s.answer 0), .dout (bitAt s.sr 31)] })) ∧
      (s.answer 0 ≠ Config.readyLevel →
        step s = .next (advanceHost
          { u with
            cs := 0#1, retry := s.retry + 1#7, ph := .pollBackoff,
            trace := s.trace ++ [.sample (s.answer 0), .cs 0#1] }))

/-- R109: after the back-off, another select or `DeviceTimeout`. The host's signals moving on is the model's own (log 2). -/
def Obligations.BackoffRetriesOrTimesOut : Prop :=
  ∀ s : State, s.port.rst = 0#1 → s.ph = .pollBackoff →
    (s.retry.toNat < 111 →
      step s = .next (advanceHost { s with cs := 1#1, ph := .pollSel, trace := s.trace ++ [.dwell .tPoll, .cs 1#1] })) ∧
    (s.retry.toNat = 111 →
      step s = .next (advanceHost
        { s with timeout := 1#1, done := 1#1, ph := .idle, trace := s.trace ++ [.dwell .tPoll] }))

/-- R110 and R111: a transmit pulse, with the three ways it can end. That the clock's fall stands before the data change in R111's trace is
the spec's decision D28; the host's signals moving on is the model's own (log 2). -/
def Obligations.TransmitPulse : Prop :=
  ∀ s : State, s.port.rst = 0#1 →
    (s.ph = .txSetup →
      step s = .next (advanceHost { s with sk := 1#1, ph := .txHi, trace := s.trace ++ [.dwell .tSetup, .sk 1#1] })) ∧
    (s.ph = .txHi → s.bitCnt.toNat + 1 < 32 →
      step s = .next (advanceHost
        { s with
          sk := 0#1, sr := s.sr <<< 1, bitCnt := s.bitCnt + 1#6, dout := bitAt s.sr 30, ph := .txSetup,
          trace := s.trace ++ [.dwell .tSkh, .sk 0#1, .dout (bitAt s.sr 30)] })) ∧
    (s.ph = .txHi → s.bitCnt.toNat + 1 = 32 → s.wr = 1#1 →
      step s = .next (advanceHost
        { s with
          sk := 0#1, sr := s.sr <<< 1, bitCnt := 0#6, dout := 0#1, rx := 0#16, ph := .rxSetup,
          trace := s.trace ++ [.dwell .tSkh, .sk 0#1, .dout 0#1] })) ∧
    (s.ph = .txHi → s.bitCnt.toNat + 1 = 32 → s.wr = 0#1 →
      step s = .next (advanceHost
        { s with
          sk := 0#1, sr := s.sr <<< 1, bitCnt := s.bitCnt + 1#6, ph := .csHold,
          trace := s.trace ++ [.dwell .tSkh, .sk 0#1] }))

/-- R112 and R113: a read bit is sampled into `RX` before its pulse, and the pulse counted. `u` as in `StatusSample`. The
`T_SETUP` before a read sample is the spec's decision D12; the answers' form is log 3, the host's signals log 2. -/
def Obligations.ReceivePulse : Prop :=
  ∀ s : State, s.port.rst = 0#1 →
    (s.ph = .rxSetup →
      ∃ u : State, (∀ k, u.answer k = s.answer (k + 1)) ∧ { u with answers := s.answers, draws := s.draws } = s ∧
        step s = .next (advanceHost
          { u with
            rx := s.rx.extractLsb' 0 15 ++ s.answer 0, sk := 1#1, ph := .rxHi,
            trace := s.trace ++ [.dwell .tSetup, .sample (s.answer 0), .sk 1#1] })) ∧
    (s.ph = .rxHi → s.bitCnt.toNat + 1 < 17 →
      step s = .next (advanceHost
        { s with
          sk := 0#1, bitCnt := s.bitCnt + 1#6, ph := .rxSetup, trace := s.trace ++ [.dwell .tSkh, .sk 0#1] })) ∧
    (s.ph = .rxHi → 17 ≤ s.bitCnt.toNat + 1 → s.bitCnt.toNat ≤ 32 →
      step s = .next (advanceHost
        { s with
          sk := 0#1, bitCnt := s.bitCnt + 1#6, ph := .csHold, trace := s.trace ++ [.dwell .tSkh, .sk 0#1] }))

/-- R115 and R116: deselect, and the successful end. The host's signals moving on is the model's own (log 2). -/
def Obligations.DeselectAndSucceed : Prop :=
  ∀ s : State, s.port.rst = 0#1 →
    (s.ph = .csHold →
      step s = .next (advanceHost { s with cs := 0#1, ph := .csOff, trace := s.trace ++ [.dwell .tCsh, .cs 0#1] })) ∧
    (s.ph = .csOff → s.wr = 1#1 →
      step s = .next (advanceHost
        { s with
          result := s.rx, resultValid := 1#1, done := 1#1, ph := .idle, trace := s.trace ++ [.dwell .tCsl] })) ∧
    (s.ph = .csOff → s.wr = 0#1 →
      step s = .next (advanceHost { s with done := 1#1, ph := .idle, trace := s.trace ++ [.dwell .tCsl] }))

/-! ## The failure -/

/-- R191: the failure's entry, in full, from any state that meets the invariant. -/
def Obligations.DeviceTimeoutEntry : Prop :=
  ∀ s : State, MachineInvariant s → s.port.rst = 0#1 → s.ph = .pollBackoff → s.retry.toNat = 111 →
    ∃ t, step s = .next t ∧ t.timeout = 1#1 ∧ t.done = 1#1 ∧ t.ph = .idle ∧ t.cs = 0#1 ∧ t.sk = 0#1 ∧ t.dout = 0#1 ∧
      t.resultValid = 0#1 ∧ t.result = s.result ∧ t.sr = s.sr ∧ t.retry = s.retry ∧ t.wr = s.wr ∧ t.rx = s.rx ∧
      t.bitCnt = s.bitCnt

/-- Only the exhausted back-off raises the failure (R190, R193): `TIMEOUT` rises at no other step. -/
def Obligations.TimeoutRaisedOnlyByExhaustedBackoff : Prop :=
  ∀ s t : State, step s = .next t → s.timeout = 0#1 → t.timeout = 1#1 →
    s.port.rst = 0#1 ∧ s.ph = .pollBackoff ∧ 111 ≤ s.retry.toNat

/-- A device that never says ready within the budget makes every command fail, after exactly 111 iterations and with `DOUT` never
driven after the start: no bit of the word is sent (R109, R190; the source's own property S3). -/
def Obligations.NeverReadyTimesOut : Prop :=
  ∀ (s : State) (i : Instr), Accepts s i → NoReset s → (∀ k, k < 111 → s.answer k ≠ Config.readyLevel) →
    ∃ t, runSteps 446 s = .next t ∧ t.ph = .idle ∧ t.transactResult = .failed .deviceTimeout ∧ t.resultValid = 0#1 ∧
      t.result = s.result ∧ t.sr = encode i ∧ t.retry.toNat = 111 ∧ t.cs = 0#1 ∧ t.sk = 0#1 ∧ t.dout = 0#1 ∧
      selects t.trace = selects s.trace + 111 ∧ dinSamples t.trace = dinSamples s.trace + 111 ∧
      doutWrites t.trace = doutWrites s.trace + 1

/-! ## Invariants and whole-machine rules -/

/-- Reset meets the invariants of R39. The bounds on `RETRY` and `BITCNT` rest on the zeros the model chose for `State.reset`, where R38
leaves these registers unspecified (log 4), and the trace's agreement on the model's empty trace there (log 11). -/
def Obligations.ResetMeetsInvariants : Prop := MachineInvariant State.reset ∧ TraceMatchesLines State.reset

/-- R39 (with the phase facts that make it inductive) is kept by every step, reset edges included. -/
def Obligations.StepKeepsInvariant : Prop := ∀ s t : State, MachineInvariant s → step s = .next t → MachineInvariant t

/-- The pin trace always agrees with the pins (R10, R28). -/
def Obligations.StepKeepsTraceMatchingLines : Prop :=
  ∀ s t : State, TraceMatchesLines s → step s = .next t → TraceMatchesLines t

/-- `RESULT` holds: without a reset it changes only at the end of a transaction that read, and then to `RX` (R31). -/
def Obligations.ResultWrittenOnlyAtSuccessfulRead : Prop :=
  ∀ s t : State, s.port.rst = 0#1 → step s = .next t → t.result ≠ s.result →
    s.ph = .csOff ∧ s.wr = 1#1 ∧ t.result = s.rx ∧ t.resultValid = 1#1 ∧ t.done = 1#1

/-- `WR` is written at an accepted start only (R27); `SR` there and at transmit pulses only (R23). -/
def Obligations.LatchedAtTheAcceptedStartOnly : Prop :=
  ∀ s t : State, s.port.rst = 0#1 → step s = .next t →
    (t.wr ≠ s.wr → s.ph = .idle ∧ s.port.start = 1#1 ∧ t.wr = s.port.wantsRead) ∧
    (t.sr ≠ s.sr → (s.ph = .idle ∧ s.port.start = 1#1) ∨ (s.ph = .txHi ∧ t.sr = s.sr <<< 1))

/-- `DIN` matters at the sampling steps only (R29): in every other phase a step is the same whatever the device has ready to answer,
and takes no answer. -/
def Obligations.DinIgnoredOutsideSampling : Prop :=
  ∀ (s t : State) (as : List Bit), s.port.rst = 0#1 → s.ph ≠ .pollSample → s.ph ≠ .rxSetup → step s = .next t →
    step { s with answers := as } = .next { t with answers := as } ∧ t.answers = s.answers ∧ t.draws = s.draws

/-- The status port (R31): `busy`, the three results of a transaction, and `RESULT` readable only while valid. -/
def Obligations.StatusPortReadings : Prop :=
  ∀ s : State,
    (s.busy = 1#1 ↔ s.ph ≠ .idle) ∧
    (s.done = 0#1 → s.transactResult = .notEnded) ∧
    (s.done = 1#1 → s.timeout = 1#1 → s.transactResult = .failed .deviceTimeout) ∧
    (s.done = 1#1 → s.timeout = 0#1 → s.resultValid = 1#1 → s.transactResult = .success (some s.result)) ∧
    (s.done = 1#1 → s.timeout = 0#1 → s.resultValid = 0#1 → s.transactResult = .success none) ∧
    (s.resultValid = 1#1 → readResult s = .ok s.result) ∧
    (s.resultValid = 0#1 → readResult s = .error .resultNotValid)

/-- R28 (decision D6): the chip-select pin carries the active level exactly when the device is selected. -/
def Obligations.ChipSelectPinLevel : Prop :=
  ∀ s : State, (s.cs = 1#1 → s.csPin = Config.csActiveLevel) ∧ (s.cs = 0#1 → s.csPin = ~~~Config.csActiveLevel)

/-- R10: what is left of a trace without its idle drives is exactly its samples, its dwells and its drives that change a level, in order,
each at the levels it had; no idle drive remains, the lines end at the same levels, and doing it twice is doing it once. Two traces are
the same behaviour exactly when they agree on those events. -/
def Obligations.IdleDrivesCarryNothing : Prop :=
  ∀ (l : Lines) (es : List PinEvent),
    let kept := withoutIdleDrives l es
    withLevels l kept = (withLevels l es).filter tells ∧
    (∀ p ∈ withLevels l kept, isIdleDrive p.1 p.2 = false) ∧
    kept.filter (fun e => isSample e || isDwell e) = es.filter (fun e => isSample e || isDwell e) ∧
    linesAfter l kept = linesAfter l es ∧
    withoutIdleDrives l kept = kept ∧
    ∀ fs : List PinEvent,
      sameBehaviour l es fs = true ↔ (withLevels l es).filter tells = (withLevels l fs).filter tells

/-- Every transaction ends: from any busy state that meets the invariant, without reset, the engine is idle again within 544 steps and
none of them stops (R100). -/
def Obligations.EveryTransactionEnds : Prop :=
  ∀ s : State, MachineInvariant s → NoReset s → s.ph ≠ .idle →
    ∃ n t, n ≤ 544 ∧ runSteps n s = .next t ∧ t.ph = .idle ∧ t.done = 1#1

/-! ## The transaction as a whole -/

/-- R117: the step machine computes the big-step function. Whatever the device answers and whatever the host does on the port
meanwhile (short of reset), the transaction is a function of its word, its read bit and the answers; it is busy until its last step
and ends as the function says. -/
def Obligations.TransactionEqualsBigStep : Prop :=
  ∀ (s : State) (i : Instr), Accepts s i → NoReset s →
    (∃ t, runSteps (1 + (transactionFrom (encode i) s).steps) s = .next t ∧ EndsAs s t (transactionFrom (encode i) s)) ∧
    (∀ k, 1 ≤ k → k ≤ (transactionFrom (encode i) s).steps → ∃ u, runSteps k s = .next u ∧ u.ph ≠ .idle)

/-- The registers and `DOUT` after a successful transaction: `SR` is empty whatever was sent, `DOUT` holds the last bit of the word when
nothing was read and is low when something was (R23, R28, R121). -/
def Obligations.RegistersAfterSuccess : Prop :=
  ∀ (s : State) (i : Instr) (b : Nat), Accepts s i → NoReset s → busyBefore s.answer = some b →
    ∃ t, runSteps (1 + (transactionFrom (encode i) s).steps) s = .next t ∧ t.sr = 0#32 ∧ t.wr = s.port.wantsRead ∧
      (s.port.wantsRead = 0#1 → t.dout = bitAt (encode i) 0 ∧ t.bitCnt = 32#6 ∧ t.rx = s.rx) ∧
      (s.port.wantsRead = 1#1 → t.dout = 0#1 ∧ t.bitCnt = 17#6 ∧ t.rx = readValue (fun j => s.answer (b + 1 + j)))

/-- The host's whole transaction (R140): presenting a command to the idle engine and waiting ends, idle, as the big-step function of its
word and read flag says. How the host drops `start` is log 20, the model's own. -/
def Obligations.HostTransactionEnds : Prop :=
  ∀ (x : Issue) (s : State), s.ph = .idle →
    ∃ t, runTransaction x s = .next t ∧ EndsAs (present x s) t (transactionFrom (encode x.instr) (present x s))

/-- R118's counts, of the big-step function. -/
def Obligations.TransactionCounts : Prop :=
  ∀ (w : TxWord) (wr : Bit) (answers : Nat → Bit),
    let r := transact { word := w, wantsRead := wr } answers
    (busyBefore answers = none →
      selects r.trace = 111 ∧ clockPulses r.trace = 111 ∧ dinSamples r.trace = 111 ∧ doutWrites r.trace = 1) ∧
    (∀ b, busyBefore answers = some b → wr = 0#1 →
      b ≤ 110 ∧ selects r.trace = b + 1 ∧ clockPulses r.trace = b + 1 + 32 ∧ dinSamples r.trace = b + 1 ∧
        doutWrites r.trace = 1 + 32) ∧
    (∀ b, busyBefore answers = some b → wr = 1#1 →
      b ≤ 110 ∧ selects r.trace = b + 1 ∧ clockPulses r.trace = b + 1 + 32 + 17 ∧ dinSamples r.trace = b + 1 + 17 ∧
        doutWrites r.trace = 1 + 33)

/-- What a device can take from the wire (R51, R61, R83, R84): one 0 per poll pulse, then exactly the 32 bits of the word, then a 0 per
read pulse; after a timeout only the poll pulses' zeros. Taking the level at the clock's rise is the model's choice
(log 24). -/
def Obligations.DeviceTakesExactlyTheWord : Prop :=
  ∀ (w : TxWord) (wr : Bit) (answers : Nat → Bit),
    let taken := bitsTaken resetLines (transact { word := w, wantsRead := wr } answers).trace
    (busyBefore answers = none → taken = List.replicate 111 0#1) ∧
    (∀ b, busyBefore answers = some b →
      taken = List.replicate (b + 1) 0#1 ++ wireBits w ++ (if wr = 1#1 then List.replicate 17 0#1 else []))

/-- R226's minimum durations, in nanoseconds (log 14), with `b` busy iterations. They rest on the dwells of decision D12. -/
def Obligations.MinimumDurations : Prop :=
  ∀ (w : TxWord) (wr : Bit) (answers : Nat → Bit),
    let r := transact { word := w, wantsRead := wr } answers
    (busyBefore answers = none → minimumNs r.trace = 22427000) ∧
    (∀ b, busyBefore answers = some b → wr = 0#1 →
      minimumNs r.trace = 135000 + b * 202000 + Config.tCshNs + Config.tCslNs) ∧
    (∀ b, busyBefore answers = some b → wr = 1#1 →
      minimumNs r.trace = 203000 + b * 202000 + Config.tCshNs + Config.tCslNs)

/-- R24, R121: after the seventeen shifts `RX` holds samples 2 to 17, sample 2 in bit 15, whatever it held before and whatever the dummy
was; and 32 shifts empty `SR`. -/
def Obligations.ShiftRegisters : Prop :=
  (∀ (rx : Data) (r : Nat → Bit) (j : Nat), j < 16 →
    bitAt (((List.range 17).map r).foldl shiftIn rx) (15 - j) = r (j + 1)) ∧
  (∀ (rx : Data) (r : Nat → Bit), ((List.range 17).map r).foldl shiftIn rx = readValue r) ∧
  (∀ w : TxWord, (List.range 32).foldl (fun (v : TxWord) _ => v <<< 1) w = 0#32)

/-! ## The clocked block -/

/-- R33: the clocked block stays in a phase for the clocks `WAITCNT` holds, with pins and trace unchanged, then leaves it as the untimed
step does, and the count is loaded for the phase entered. -/
def Obligations.DwellIsServed : Prop :=
  ∀ s : State, NoReset s → s.ph ≠ .idle →
    (∀ k, k < max 1 s.waitCnt →
      ∃ u, runClocks k s = .next u ∧ u.ph = s.ph ∧ u.lines = s.lines ∧ u.trace = s.trace ∧ u.waitCnt = s.waitCnt - k) ∧
    (∃ u v, runClocks (max 1 s.waitCnt) s = .next u ∧ step s = .next v ∧ u.waitCnt = phaseClocks Config.fClkHz u.ph ∧
      u = { v with port := u.port, upcoming := u.upcoming, waitCnt := u.waitCnt })

/-- R227: every phase lasts at least one clock and at least its minimum time; at 1 MHz the table of R225 is 5, 1, 2, 1, 200, 2 clocks. -/
def Obligations.DwellClocks : Prop :=
  (∀ ns hz, 1 ≤ clocksFor ns hz ∧ ns * hz ≤ clocksFor ns hz * 1000000000) ∧
  phaseClocks 1000000 .settle = 5 ∧ phaseClocks 1000000 .pollSel = 1 ∧ phaseClocks 1000000 .pollHi = 2 ∧
  phaseClocks 1000000 .pollSample = 1 ∧ phaseClocks 1000000 .pollBackoff = 200 ∧ phaseClocks 1000000 .txSetup = 2

/-! ## The software around the engine -/

/-- R174: a call with an operand out of range fails before the engine sees it. -/
def Obligations.BadOperandsNeverReachTheEngine : Prop :=
  ∀ (c : DispatcherCall) (s : State) (st : RegisterStore), c.wellFormed = false →
    (dispatch c s st).machine = s ∧ (dispatch c s st).store = st ∧
    ((dispatch c s st).values = .error .addressOutOfRange ∨ (dispatch c s st).values = .error .dataOutOfRange)

/-- The dispatcher's `read`: one transaction of `ReadShort` with the read flag, whose value is returned and put in the store (R89, R173;
the mapping is decision D20). -/
def Obligations.DispatcherReadReturnsTheValueRead : Prop :=
  ∀ (s : State) (st : RegisterStore) (a : Addr) (b : Nat), s.ph = .idle → busyBefore s.answer = some b →
    (dispatch (.read a.toNat) s st).values = .ok [readValue fun j => s.answer (b + 1 + j)] ∧
    (dispatch (.read a.toNat) s st).store = st.set a (readValue fun j => s.answer (b + 1 + j))

/-- R171: for every store, populated or not, serialize's line of each address reads back as a data record with the fields the rule
gives, the register's bytes low byte first, and a checksum of one byte that makes the sum zero modulo 256; the 65th and last line is
the end-of-file record; and the lines depend on the registers' values alone. -/
def Obligations.RecordChecksumLaw : Prop :=
  (∀ st : RegisterStore,
    (serialize st).length = 65 ∧ (serialize st)[64]? = some eofRecord ∧
    ∀ a : Addr, ∃ l r,
      (serialize st)[a.toNat]? = some l ∧ l.head? = some ':' ∧ l.length = 15 ∧ readRecord (l.drop 1) = some r ∧
      r.length = 2 ∧ r.address = a.toNat ∧ r.type = 0 ∧
      r.byte1 = (st.get a).toNat % 256 ∧ r.byte2 = (st.get a).toNat / 256 ∧
      r.checksum < 256 ∧ (2 + r.address + r.byte1 + r.byte2 + r.checksum) % 256 = 0 ∧ recordSum r % 256 = 0) ∧
  ∀ st st' : RegisterStore, (∀ a, st.get a = st'.get a) → serialize st = serialize st'

/-- R176's round trip: parsing what serialize wrote gives back every value, all populated, with no diagnostic, and serialize then writes
the same lines. -/
def Obligations.SerializeParseRoundTrip : Prop :=
  ∀ st : RegisterStore,
    (parse (serialize st)).2 = [] ∧ serialize (parse (serialize st)).1 = serialize st ∧
    (st.allPopulated = true → (parse (serialize st)).1 = st)

/-- R172: the export guard. -/
def Obligations.ExportNeedsEveryRegister : Prop :=
  ∀ st : RegisterStore,
    (st.allPopulated = true → exportImage st = .ok (serialize st)) ∧
    (st.allPopulated = false → exportImage st = .error .incompleteImage)

/-! ## After a failure -/

/-- R192: the failure indication lasts until the next accepted start or a reset. That start clears all three flags and gives a fresh
budget, and a step that raises the failure ends its transaction. -/
def Obligations.FailureLastsUntilNextStart : Prop :=
  ∀ s t : State, s.port.rst = 0#1 → step s = .next t →
    (s.timeout = 1#1 → t.timeout ≠ 1#1 →
      s.ph = .idle ∧ s.port.start = 1#1 ∧ s.port.command.kind ≠ 7#3) ∧
    (s.ph = .idle → s.port.start = 1#1 →
      t.timeout = 0#1 ∧ t.done = 0#1 ∧ t.resultValid = 0#1 ∧ t.retry = 0#7 ∧ t.ph = .settle) ∧
    (s.timeout = 0#1 → t.timeout = 1#1 → t.ph = .idle ∧ t.done = 1#1)
end

