-- ==== Sys2Proof/Laws/Decode.lean ====
section
/-! SUPPORT. Facts about the opcode table and the encoders that proofs about encodings start from. -/

namespace Sys2Proof

/-- No word can belong to both rows: some bit is fixed by both, to different values. -/
def OpcodeRow.disjoint (r q : OpcodeRow) : Bool := (r.mask &&& q.mask &&& (r.pattern ^^^ q.pattern)) != 0#32

/-- The seven patterns are pairwise disjoint (R85). -/
theorem opcodeTable_disjoint : opcodeTable.Pairwise fun r q => r.disjoint q = true := by decide

/-- Every row's pattern has ones only where its mask does. -/
theorem opcodeTable_patterns : ∀ r ∈ opcodeTable, r.pattern &&& r.mask = r.pattern := by decide

/-- Six bits name a device register. -/
theorem addrInRange_toNat (a : Addr) : addrInRange a.toNat = true := decide_eq_true a.isLt

/-- Sixteen bits fit a device register. -/
theorem dataInRange_toNat (d : Data) : dataInRange d.toNat = true := decide_eq_true d.isLt

/-- Every operand of a command is in range, by its width (R21). -/
theorem Instr.wellFormed_all (i : Instr) : i.wellFormed = true := by
  cases i <;> simp [Instr.wellFormed, addrInRange_toNat, dataInRange_toNat]

/-- The decoder, row by row. -/
theorem decode_eq (w : TxWord) :
    decode w =
      if w = 0x00000100#32 then .command .writeDisable
      else if w &&& 0xFFFF0000#32 = 0x01010000#32 then .command (.writeAll (dataOfD w))
      else if w = 0x00000102#32 then .command .eraseAll
      else if w = 0x00000103#32 then .command .writeEnable
      else if w &&& 0xFFC00000#32 = 0x01400000#32 then .command (.writeShort (addrOfD w) (dataOfD w))
      else if w &&& 0xFFFFFFC0#32 = 0x00000180#32 then .command (.readShort (addrOfN w))
      else if w &&& 0xFFFFFFC0#32 = 0x000001C0#32 then .command (.eraseShort (addrOfN w))
      else .rejected .notACommandWord := by
  have ones : ∀ v : TxWord, v &&& 0xFFFFFFFF#32 = v := fun v => BitVec.and_allOnes
  simp only [decode, opcodeTable, List.find?, OpcodeRow.covers, ones]
  by_cases h1 : w = 0x00000100#32
  · simp [h1]
  by_cases h2 : w &&& 0xFFFF0000#32 = 0x01010000#32
  · simp [h1, h2]
  by_cases h3 : w = 0x00000102#32
  · simp [h3]
  by_cases h4 : w = 0x00000103#32
  · simp [h4]
  by_cases h5 : w &&& 0xFFC00000#32 = 0x01400000#32
  · simp [h1, h2, h3, h4, h5]
  by_cases h6 : w &&& 0xFFFFFFC0#32 = 0x00000180#32
  · simp [h1, h2, h3, h4, h5, h6]
  by_cases h7 : w &&& 0xFFFFFFC0#32 = 0x000001C0#32
  · simp [h1, h2, h3, h4, h5, h7]
  simp [h1, h2, h3, h4, h5, h6, h7]

/-- A decoded word belongs to a row of the table. -/
theorem decode_command_row {w : TxWord} {i : Instr} (h : decode w = .command i) :
    ∃ r ∈ opcodeTable, r.covers w = true ∧ r.build w = i := by
  unfold decode at h
  cases hf : opcodeTable.find? (fun r => r.covers w) with
  | none => simp [hf] at h
  | some r =>
    simp only [hf, Decoded.command.injEq] at h
    exact ⟨r, List.mem_of_find?_eq_some hf, List.find?_some (p := fun r : OpcodeRow => r.covers w) hf, h⟩

end Sys2Proof
end

