-- ==== Sys2Proof/Laws/State.lean ====
section
/-! SUPPORT. One lemma per field for each shared update of State, so that no proof unfolds a record update. -/

namespace Sys2Proof.Machine

/-! ## emit -/

@[simp] theorem emit_ph (es : List PinEvent) (s : State) : (emit es s).ph = s.ph := rfl
@[simp] theorem emit_sr (es : List PinEvent) (s : State) : (emit es s).sr = s.sr := rfl
@[simp] theorem emit_rx (es : List PinEvent) (s : State) : (emit es s).rx = s.rx := rfl
@[simp] theorem emit_bitCnt (es : List PinEvent) (s : State) : (emit es s).bitCnt = s.bitCnt := rfl
@[simp] theorem emit_retry (es : List PinEvent) (s : State) : (emit es s).retry = s.retry := rfl
@[simp] theorem emit_wr (es : List PinEvent) (s : State) : (emit es s).wr = s.wr := rfl
@[simp] theorem emit_cs (es : List PinEvent) (s : State) : (emit es s).cs = s.cs := rfl
@[simp] theorem emit_sk (es : List PinEvent) (s : State) : (emit es s).sk = s.sk := rfl
@[simp] theorem emit_dout (es : List PinEvent) (s : State) : (emit es s).dout = s.dout := rfl
@[simp] theorem emit_done (es : List PinEvent) (s : State) : (emit es s).done = s.done := rfl
@[simp] theorem emit_timeout (es : List PinEvent) (s : State) : (emit es s).timeout = s.timeout := rfl
@[simp] theorem emit_resultValid (es : List PinEvent) (s : State) : (emit es s).resultValid = s.resultValid := rfl
@[simp] theorem emit_result (es : List PinEvent) (s : State) : (emit es s).result = s.result := rfl
@[simp] theorem emit_waitCnt (es : List PinEvent) (s : State) : (emit es s).waitCnt = s.waitCnt := rfl
@[simp] theorem emit_port (es : List PinEvent) (s : State) : (emit es s).port = s.port := rfl
@[simp] theorem emit_upcoming (es : List PinEvent) (s : State) : (emit es s).upcoming = s.upcoming := rfl
@[simp] theorem emit_answers (es : List PinEvent) (s : State) : (emit es s).answers = s.answers := rfl
@[simp] theorem emit_draws (es : List PinEvent) (s : State) : (emit es s).draws = s.draws := rfl
@[simp] theorem emit_trace (es : List PinEvent) (s : State) : (emit es s).trace = s.trace ++ es := rfl

/-! ## clearFlags -/

@[simp] theorem clearFlags_ph (s : State) : (clearFlags s).ph = s.ph := rfl
@[simp] theorem clearFlags_sr (s : State) : (clearFlags s).sr = s.sr := rfl
@[simp] theorem clearFlags_rx (s : State) : (clearFlags s).rx = s.rx := rfl
@[simp] theorem clearFlags_bitCnt (s : State) : (clearFlags s).bitCnt = s.bitCnt := rfl
@[simp] theorem clearFlags_retry (s : State) : (clearFlags s).retry = s.retry := rfl
@[simp] theorem clearFlags_wr (s : State) : (clearFlags s).wr = s.wr := rfl
@[simp] theorem clearFlags_cs (s : State) : (clearFlags s).cs = s.cs := rfl
@[simp] theorem clearFlags_sk (s : State) : (clearFlags s).sk = s.sk := rfl
@[simp] theorem clearFlags_dout (s : State) : (clearFlags s).dout = s.dout := rfl
@[simp] theorem clearFlags_done (s : State) : (clearFlags s).done = 0#1 := rfl
@[simp] theorem clearFlags_timeout (s : State) : (clearFlags s).timeout = 0#1 := rfl
@[simp] theorem clearFlags_resultValid (s : State) : (clearFlags s).resultValid = 0#1 := rfl
@[simp] theorem clearFlags_result (s : State) : (clearFlags s).result = s.result := rfl
@[simp] theorem clearFlags_waitCnt (s : State) : (clearFlags s).waitCnt = s.waitCnt := rfl
@[simp] theorem clearFlags_port (s : State) : (clearFlags s).port = s.port := rfl
@[simp] theorem clearFlags_upcoming (s : State) : (clearFlags s).upcoming = s.upcoming := rfl
@[simp] theorem clearFlags_answers (s : State) : (clearFlags s).answers = s.answers := rfl
@[simp] theorem clearFlags_draws (s : State) : (clearFlags s).draws = s.draws := rfl
@[simp] theorem clearFlags_trace (s : State) : (clearFlags s).trace = s.trace := rfl

/-! ## completeFlags -/

@[simp] theorem completeFlags_ph (s : State) : (completeFlags s).ph = s.ph := rfl
@[simp] theorem completeFlags_sr (s : State) : (completeFlags s).sr = s.sr := rfl
@[simp] theorem completeFlags_rx (s : State) : (completeFlags s).rx = s.rx := rfl
@[simp] theorem completeFlags_bitCnt (s : State) : (completeFlags s).bitCnt = s.bitCnt := rfl
@[simp] theorem completeFlags_retry (s : State) : (completeFlags s).retry = s.retry := rfl
@[simp] theorem completeFlags_wr (s : State) : (completeFlags s).wr = s.wr := rfl
@[simp] theorem completeFlags_cs (s : State) : (completeFlags s).cs = s.cs := rfl
@[simp] theorem completeFlags_sk (s : State) : (completeFlags s).sk = s.sk := rfl
@[simp] theorem completeFlags_dout (s : State) : (completeFlags s).dout = s.dout := rfl
@[simp] theorem completeFlags_done (s : State) : (completeFlags s).done = 1#1 := rfl
@[simp] theorem completeFlags_timeout (s : State) : (completeFlags s).timeout = s.timeout := rfl
@[simp] theorem completeFlags_resultValid (s : State) : (completeFlags s).resultValid = if s.wr = 1#1 then 1#1 else s.resultValid := rfl
@[simp] theorem completeFlags_result (s : State) : (completeFlags s).result = if s.wr = 1#1 then s.rx else s.result := rfl
@[simp] theorem completeFlags_waitCnt (s : State) : (completeFlags s).waitCnt = s.waitCnt := rfl
@[simp] theorem completeFlags_port (s : State) : (completeFlags s).port = s.port := rfl
@[simp] theorem completeFlags_upcoming (s : State) : (completeFlags s).upcoming = s.upcoming := rfl
@[simp] theorem completeFlags_answers (s : State) : (completeFlags s).answers = s.answers := rfl
@[simp] theorem completeFlags_draws (s : State) : (completeFlags s).draws = s.draws := rfl
@[simp] theorem completeFlags_trace (s : State) : (completeFlags s).trace = s.trace := rfl

/-! ## raiseDeviceTimeout -/

@[simp] theorem raiseDeviceTimeout_ph (s : State) : (raiseDeviceTimeout s).ph = .idle := rfl
@[simp] theorem raiseDeviceTimeout_sr (s : State) : (raiseDeviceTimeout s).sr = s.sr := rfl
@[simp] theorem raiseDeviceTimeout_rx (s : State) : (raiseDeviceTimeout s).rx = s.rx := rfl
@[simp] theorem raiseDeviceTimeout_bitCnt (s : State) : (raiseDeviceTimeout s).bitCnt = s.bitCnt := rfl
@[simp] theorem raiseDeviceTimeout_retry (s : State) : (raiseDeviceTimeout s).retry = s.retry := rfl
@[simp] theorem raiseDeviceTimeout_wr (s : State) : (raiseDeviceTimeout s).wr = s.wr := rfl
@[simp] theorem raiseDeviceTimeout_cs (s : State) : (raiseDeviceTimeout s).cs = s.cs := rfl
@[simp] theorem raiseDeviceTimeout_sk (s : State) : (raiseDeviceTimeout s).sk = s.sk := rfl
@[simp] theorem raiseDeviceTimeout_dout (s : State) : (raiseDeviceTimeout s).dout = s.dout := rfl
@[simp] theorem raiseDeviceTimeout_done (s : State) : (raiseDeviceTimeout s).done = 1#1 := rfl
@[simp] theorem raiseDeviceTimeout_timeout (s : State) : (raiseDeviceTimeout s).timeout = 1#1 := rfl
@[simp] theorem raiseDeviceTimeout_resultValid (s : State) : (raiseDeviceTimeout s).resultValid = s.resultValid := rfl
@[simp] theorem raiseDeviceTimeout_result (s : State) : (raiseDeviceTimeout s).result = s.result := rfl
@[simp] theorem raiseDeviceTimeout_waitCnt (s : State) : (raiseDeviceTimeout s).waitCnt = s.waitCnt := rfl
@[simp] theorem raiseDeviceTimeout_port (s : State) : (raiseDeviceTimeout s).port = s.port := rfl
@[simp] theorem raiseDeviceTimeout_upcoming (s : State) : (raiseDeviceTimeout s).upcoming = s.upcoming := rfl
@[simp] theorem raiseDeviceTimeout_answers (s : State) : (raiseDeviceTimeout s).answers = s.answers := rfl
@[simp] theorem raiseDeviceTimeout_draws (s : State) : (raiseDeviceTimeout s).draws = s.draws := rfl
@[simp] theorem raiseDeviceTimeout_trace (s : State) : (raiseDeviceTimeout s).trace = s.trace := rfl

/-! ## advanceHost -/

@[simp] theorem advanceHost_ph (s : State) : (advanceHost s).ph = s.ph := by unfold advanceHost; split <;> rfl
@[simp] theorem advanceHost_sr (s : State) : (advanceHost s).sr = s.sr := by unfold advanceHost; split <;> rfl
@[simp] theorem advanceHost_rx (s : State) : (advanceHost s).rx = s.rx := by unfold advanceHost; split <;> rfl
@[simp] theorem advanceHost_bitCnt (s : State) : (advanceHost s).bitCnt = s.bitCnt := by unfold advanceHost; split <;> rfl
@[simp] theorem advanceHost_retry (s : State) : (advanceHost s).retry = s.retry := by unfold advanceHost; split <;> rfl
@[simp] theorem advanceHost_wr (s : State) : (advanceHost s).wr = s.wr := by unfold advanceHost; split <;> rfl
@[simp] theorem advanceHost_cs (s : State) : (advanceHost s).cs = s.cs := by unfold advanceHost; split <;> rfl
@[simp] theorem advanceHost_sk (s : State) : (advanceHost s).sk = s.sk := by unfold advanceHost; split <;> rfl
@[simp] theorem advanceHost_dout (s : State) : (advanceHost s).dout = s.dout := by unfold advanceHost; split <;> rfl
@[simp] theorem advanceHost_done (s : State) : (advanceHost s).done = s.done := by unfold advanceHost; split <;> rfl
@[simp] theorem advanceHost_timeout (s : State) : (advanceHost s).timeout = s.timeout := by unfold advanceHost; split <;> rfl
@[simp] theorem advanceHost_resultValid (s : State) : (advanceHost s).resultValid = s.resultValid := by unfold advanceHost; split <;> rfl
@[simp] theorem advanceHost_result (s : State) : (advanceHost s).result = s.result := by unfold advanceHost; split <;> rfl
@[simp] theorem advanceHost_waitCnt (s : State) : (advanceHost s).waitCnt = s.waitCnt := by unfold advanceHost; split <;> rfl
@[simp] theorem advanceHost_answers (s : State) : (advanceHost s).answers = s.answers := by unfold advanceHost; split <;> rfl
@[simp] theorem advanceHost_draws (s : State) : (advanceHost s).draws = s.draws := by unfold advanceHost; split <;> rfl
@[simp] theorem advanceHost_trace (s : State) : (advanceHost s).trace = s.trace := by unfold advanceHost; split <;> rfl

/-! ## sampled -/

@[simp] theorem sampled_ph (s : State) : (s.sampled).ph = s.ph := by unfold State.sampled; split <;> rfl
@[simp] theorem sampled_sr (s : State) : (s.sampled).sr = s.sr := by unfold State.sampled; split <;> rfl
@[simp] theorem sampled_rx (s : State) : (s.sampled).rx = s.rx := by unfold State.sampled; split <;> rfl
@[simp] theorem sampled_bitCnt (s : State) : (s.sampled).bitCnt = s.bitCnt := by unfold State.sampled; split <;> rfl
@[simp] theorem sampled_retry (s : State) : (s.sampled).retry = s.retry := by unfold State.sampled; split <;> rfl
@[simp] theorem sampled_wr (s : State) : (s.sampled).wr = s.wr := by unfold State.sampled; split <;> rfl
@[simp] theorem sampled_cs (s : State) : (s.sampled).cs = s.cs := by unfold State.sampled; split <;> rfl
@[simp] theorem sampled_sk (s : State) : (s.sampled).sk = s.sk := by unfold State.sampled; split <;> rfl
@[simp] theorem sampled_dout (s : State) : (s.sampled).dout = s.dout := by unfold State.sampled; split <;> rfl
@[simp] theorem sampled_done (s : State) : (s.sampled).done = s.done := by unfold State.sampled; split <;> rfl
@[simp] theorem sampled_timeout (s : State) : (s.sampled).timeout = s.timeout := by unfold State.sampled; split <;> rfl
@[simp] theorem sampled_resultValid (s : State) : (s.sampled).resultValid = s.resultValid := by unfold State.sampled; split <;> rfl
@[simp] theorem sampled_result (s : State) : (s.sampled).result = s.result := by unfold State.sampled; split <;> rfl
@[simp] theorem sampled_waitCnt (s : State) : (s.sampled).waitCnt = s.waitCnt := by unfold State.sampled; split <;> rfl
@[simp] theorem sampled_port (s : State) : (s.sampled).port = s.port := by unfold State.sampled; split <;> rfl
@[simp] theorem sampled_upcoming (s : State) : (s.sampled).upcoming = s.upcoming := by unfold State.sampled; split <;> rfl
@[simp] theorem sampled_trace (s : State) : (s.sampled).trace = s.trace := by unfold State.sampled; split <;> rfl

end Sys2Proof.Machine
end

