-- ==== Sys2Proof/Laws/Ops.lean ====
section
/-! SUPPORT. What each shared operation can do, said once: the phase rules as record equations, the answers of the device, and what a step is
in each of the situations an edge can find. -/

namespace Sys2Proof.Machine

/-! ## The phase rules as record equations -/

theorem acceptedStart_eq (w : TxWord) (s : State) :
    acceptedStart w s =
      { s with
        sr := w, wr := s.port.wantsRead, retry := 0#7, done := 0#1, timeout := 0#1, resultValid := 0#1,
        dout := 0#1, sk := 0#1, ph := .settle, trace := s.trace ++ [.dout 0#1, .sk 0#1] } := rfl

theorem exitSettle_eq (s : State) :
    exitSettle s = { s with cs := 1#1, ph := .pollSel, trace := s.trace ++ [.dwell .tSettle, .cs 1#1] } := rfl

theorem exitPollSel_eq (s : State) :
    exitPollSel s = { s with sk := 1#1, ph := .pollHi, trace := s.trace ++ [.dwell .tCss, .sk 1#1] } := rfl

theorem exitPollHi_eq (s : State) :
    exitPollHi s = { s with sk := 0#1, ph := .pollSample, trace := s.trace ++ [.dwell .tSkh, .sk 0#1] } := rfl

theorem exitPollSample_of_ready {s : State} (h : s.sample = Config.readyLevel) :
    exitPollSample s = pollReady s.sample s.sampled := if_pos h

theorem exitPollSample_of_busy {s : State} (h : s.sample ≠ Config.readyLevel) :
    exitPollSample s = pollBusy s.sample s.sampled := if_neg h

theorem exitPollBackoff_of_lt {s : State} (h : s.retry.toNat < Config.retryBudget) :
    exitPollBackoff s = { s with cs := 1#1, ph := .pollSel, trace := s.trace ++ [.dwell .tPoll, .cs 1#1] } := if_pos h

theorem exitPollBackoff_of_exhausted {s : State} (h : ¬ s.retry.toNat < Config.retryBudget) :
    exitPollBackoff s =
      { s with timeout := 1#1, done := 1#1, ph := .idle, trace := s.trace ++ [.dwell .tPoll] } := if_neg h

theorem exitTxSetup_eq (s : State) :
    exitTxSetup s = { s with sk := 1#1, ph := .txHi, trace := s.trace ++ [.dwell .tSetup, .sk 1#1] } := rfl

theorem exitTxHi_of_more {s : State} (h : (s.bitCnt + 1#6).toNat < Config.txWidth) :
    exitTxHi s =
      { s with
        sk := 0#1, sr := s.sr <<< 1, bitCnt := s.bitCnt + 1#6, dout := bitAt s.sr 30, ph := .txSetup,
        trace := s.trace ++ [.dwell .tSkh, .sk 0#1] ++ [.dout (bitAt s.sr 30)] } := if_pos h

theorem exitTxHi_of_read {s : State} (h : ¬ (s.bitCnt + 1#6).toNat < Config.txWidth) (hw : s.wr = 1#1) :
    exitTxHi s =
      { s with
        sk := 0#1, sr := s.sr <<< 1, bitCnt := 0#6, dout := 0#1, rx := 0#16, ph := .rxSetup,
        trace := s.trace ++ [.dwell .tSkh, .sk 0#1] ++ [.dout 0#1] } := (if_neg h).trans (if_pos hw)

theorem exitTxHi_of_done {s : State} (h : ¬ (s.bitCnt + 1#6).toNat < Config.txWidth) (hw : s.wr ≠ 1#1) :
    exitTxHi s =
      { s with
        sk := 0#1, sr := s.sr <<< 1, bitCnt := s.bitCnt + 1#6, ph := .csHold,
        trace := s.trace ++ [.dwell .tSkh, .sk 0#1] } := (if_neg h).trans (if_neg hw)

theorem exitRxSetup_eq (s : State) :
    exitRxSetup s =
      { s.sampled with
        rx := shiftIn s.rx s.sample, sk := 1#1, ph := .rxHi,
        trace := s.trace ++ [.dwell .tSetup, .sample s.sample, .sk 1#1] } := by
  simp [exitRxSetup, emit]

theorem exitRxHi_of_more {s : State} (h : (s.bitCnt + 1#6).toNat < Config.rxBits) :
    exitRxHi s =
      { s with
        sk := 0#1, bitCnt := s.bitCnt + 1#6, ph := .rxSetup, trace := s.trace ++ [.dwell .tSkh, .sk 0#1] } := by
  simp only [exitRxHi, emit, h, if_true]

theorem exitRxHi_of_done {s : State} (h : ¬ (s.bitCnt + 1#6).toNat < Config.rxBits) :
    exitRxHi s =
      { s with
        sk := 0#1, bitCnt := s.bitCnt + 1#6, ph := .csHold, trace := s.trace ++ [.dwell .tSkh, .sk 0#1] } := by
  simp only [exitRxHi, emit, h, if_false]

theorem exitCsHold_eq (s : State) :
    exitCsHold s = { s with cs := 0#1, ph := .csOff, trace := s.trace ++ [.dwell .tCsh, .cs 0#1] } := rfl

theorem exitCsOff_eq (s : State) :
    exitCsOff s =
      { s with
        result := if s.wr = 1#1 then s.rx else s.result,
        resultValid := if s.wr = 1#1 then 1#1 else s.resultValid,
        done := 1#1, ph := .idle, trace := s.trace ++ [.dwell .tCsl] } := rfl

/-! ## The device's answers -/

/-- The next sample is answer 0. -/
theorem sample_eq_answer (s : State) : s.sample = s.answer 0 := by
  rcases h : s.answers with _ | ⟨a, as⟩ <;> simp [State.sample, State.answer, h]

/-- Taking a sample moves the answers up by one. -/
theorem sampled_answer (s : State) (k : Nat) : s.sampled.answer k = s.answer (k + 1) := by
  rcases h : s.answers with _ | ⟨a, as⟩
  · simp [State.sampled, State.answer, h, Nat.add_assoc, Nat.add_comm k 1]
  · simp [State.sampled, State.answer, h, Nat.add_sub_add_right]

/-- The answers depend on the scripted list and the draw counter alone. -/
theorem answer_congr {s t : State} (ha : t.answers = s.answers) (hd : t.draws = s.draws) (k : Nat) :
    t.answer k = s.answer k := by
  simp [State.answer, ha, hd]

/-! ## Commands and steps -/

/-- Every command's meaning is to present its word (R140). -/
theorem exec_eq_presentWord (i : Instr) (s : State) : exec i s = .next (presentWord (encode i) s) := by
  cases i <;> rfl

theorem presentWord_of_idle {w : TxWord} {s : State} (h : s.ph = .idle) : presentWord w s = acceptedStart w s := if_pos h

theorem presentWord_of_busy {w : TxWord} {s : State} (h : s.ph ≠ .idle) : presentWord w s = phaseExit s := if_neg h

theorem step_of_reset {s : State} (h : s.port.rst = 1#1) : step s = .next (advanceHost (resetEdge s)) := by
  simp [step, presented, h, afterEdge]

/-- Outside `IDLE` a step is the phase's own rule, whatever stands on the command port. -/
theorem step_of_busy {s : State} (hr : s.port.rst ≠ 1#1) (hp : s.ph ≠ .idle) :
    step s = .next (advanceHost (phaseExit s)) := by
  simp only [step, presented, if_neg hr]
  by_cases hs : s.port.start = 1#1
  · rw [if_pos hs]
    cases decodePort s.port.command with
    | command i => simp [exec_eq_presentWord, presentWord_of_busy hp, afterEdge]
    | rejected r => simp [presentReserved, hp, afterEdge]
  · simp [if_neg hs, afterEdge]

/-- `IDLE` without a request holds (R114). -/
theorem step_of_quiet {s : State} (hr : s.port.rst ≠ 1#1) (hs : s.port.start ≠ 1#1) (hp : s.ph = .idle) :
    step s = .next (advanceHost s) := by
  simp [step, presented, hr, hs, afterEdge, phaseExit, hp]

/-- Everything a step can do when it goes on: a reset edge, an accepted start, an idle edge without a request, or a phase exit. -/
theorem step_next_cases {s t : State} (h : step s = .next t) :
    (s.port.rst = 1#1 ∧ t = advanceHost (resetEdge s)) ∨
    (s.port.rst ≠ 1#1 ∧ s.ph = .idle ∧ s.port.start = 1#1 ∧
      ∃ i, decodePort s.port.command = .command i ∧ t = advanceHost (acceptedStart (encode i) s)) ∨
    (s.port.rst ≠ 1#1 ∧ s.ph = .idle ∧ s.port.start ≠ 1#1 ∧ t = advanceHost s) ∨
    (s.port.rst ≠ 1#1 ∧ s.ph ≠ .idle ∧ t = advanceHost (phaseExit s)) := by
  by_cases hr : s.port.rst = 1#1
  · rw [step_of_reset hr] at h
    exact .inl ⟨hr, (Host.Outcome.next.inj h).symm⟩
  by_cases hp : s.ph = .idle
  · by_cases hs : s.port.start = 1#1
    · refine .inr (.inl ⟨hr, hp, hs, ?_⟩)
      simp only [step, presented, if_neg hr, if_pos hs] at h
      cases hd : decodePort s.port.command with
      | command i =>
        simp only [hd, exec_eq_presentWord, presentWord_of_idle hp, afterEdge] at h
        exact ⟨i, rfl, (Host.Outcome.next.inj h).symm⟩
      | rejected r => simp [hd, presentReserved, hp, afterEdge] at h
    · rw [step_of_quiet hr hs hp] at h
      exact .inr (.inr (.inl ⟨hr, hp, hs, (Host.Outcome.next.inj h).symm⟩))
  · rw [step_of_busy hr hp] at h
    exact .inr (.inr (.inr ⟨hr, hp, (Host.Outcome.next.inj h).symm⟩))

end Sys2Proof.Machine
end

