-- ==== Sys2Proof/Laws/PerInstr.lean ====
section
/-! SUPPORT. Statements for all commands, one lemma per command. -/

namespace Sys2Proof.Laws.PortForm

/-- The port form of a command is well formed and the port's decoder reads the command back from it (R72, R82). -/
def Statement (i : Instr) : Prop := (encodePort i).wellFormed = true ∧ decodePort (encodePort i) = .command i

theorem writeDisable : Statement .writeDisable := by simp [Statement, encodePort, decodePort, PortCommand.wellFormed]

theorem writeAll (data : Data) : Statement (.writeAll data) := by
  simp [Statement, encodePort, decodePort, PortCommand.wellFormed]

theorem eraseAll : Statement .eraseAll := by simp [Statement, encodePort, decodePort, PortCommand.wellFormed]

theorem writeEnable : Statement .writeEnable := by simp [Statement, encodePort, decodePort, PortCommand.wellFormed]

theorem writeShort (addr : Addr) (data : Data) : Statement (.writeShort addr data) := by
  simp [Statement, encodePort, decodePort, PortCommand.wellFormed]

theorem readShort (addr : Addr) : Statement (.readShort addr) := by
  simp [Statement, encodePort, decodePort, PortCommand.wellFormed]

theorem eraseShort (addr : Addr) : Statement (.eraseShort addr) := by
  simp [Statement, encodePort, decodePort, PortCommand.wellFormed]

end Sys2Proof.Laws.PortForm
end

