-- ==== Sys2Proof/Laws/Trace.lean ====
section
/-! SUPPORT. The small lemmas of the pin trace: lines after a trace, the levels at each event, and what an idle drive is. -/

namespace Sys2Proof.Machine

@[simp] theorem linesAfter_nil (l : Lines) : linesAfter l [] = l := rfl

@[simp] theorem linesAfter_cons (l : Lines) (e : PinEvent) (es : List PinEvent) :
    linesAfter l (e :: es) = linesAfter (applyEvent l e) es := rfl

@[simp] theorem linesAfter_append (l : Lines) (es fs : List PinEvent) :
    linesAfter l (es ++ fs) = linesAfter (linesAfter l es) fs := List.foldl_append ..

@[simp] theorem withLevels_nil (l : Lines) : withLevels l [] = [] := rfl

@[simp] theorem withLevels_cons (l : Lines) (e : PinEvent) (es : List PinEvent) :
    withLevels l (e :: es) = (l, e) :: withLevels (applyEvent l e) es := rfl

/-- The events of a trace with levels are the trace's. -/
@[simp] theorem withLevels_events (l : Lines) (es : List PinEvent) : (withLevels l es).map Prod.snd = es := by
  induction es generalizing l with
  | nil => rfl
  | cons e es ih => simp [ih]

/-- An event is an idle drive exactly when it does not count. -/
theorem isIdleDrive_eq_not_tells (l : Lines) (e : PinEvent) : isIdleDrive l e = !tells (l, e) := by
  cases e <;> cases l <;> simp [isIdleDrive, tells, isSample, isDwell, applyEvent] <;> rw [Bool.eq_iff_iff] <;> simp <;>
    exact eq_comm

/-- An idle drive leaves every line as it is. -/
theorem applyEvent_of_idle {l : Lines} {e : PinEvent} (h : isIdleDrive l e = true) : applyEvent l e = l := by
  rw [isIdleDrive_eq_not_tells] at h
  simp [tells] at h
  exact h.2

end Sys2Proof.Machine
end

