-- ==== Sys2Proof/Tests/Slice0.lean ====
section
/-! SUPPORT. The model's own tests: the WellFormed smoke, words written out from 30_encoding.md, single steps of 95_test_vectors.md, codec
vectors, and for every statement with hypotheses a witness that meets them. Expected values are the spec's. -/

namespace Sys2Proof.Tests

open Sys2Proof.Machine

/-! ## WellFormed -/

/-- K1: kind 7 is refused, kind 6 is not. -/
theorem test_wellFormed_kind7 :
    (PortCommand.mk 7#3 0#6 0#16).wellFormed = false ∧ (PortCommand.mk 6#3 0#6 0#16).wellFormed = true := by decide

/-- R174: address 64 is out of range, 63 is not. -/
theorem test_wellFormed_address :
    (DispatcherCall.read 64).wellFormed = false ∧ (DispatcherCall.read 63).wellFormed = true ∧
    (DispatcherCall.erase 64).wellFormed = false ∧ (DispatcherCall.write 64 0).wellFormed = false := by decide

/-- R174: data 65536 is out of range, 65535 is not. -/
theorem test_wellFormed_data :
    (DispatcherCall.writeAll 65536).wellFormed = false ∧ (DispatcherCall.writeAll 65535).wellFormed = true ∧
    (DispatcherCall.write 0 65536).wellFormed = false := by decide

/-- The checks behind `Instr.wellFormed`, refused at the first value out of range; no `Instr` can hold one (R21). -/
theorem test_wellFormed_ranges : addrInRange 64 = false ∧ dataInRange 65536 = false := by decide

/-! ## Decoding, words written out bit by bit from R79 and the E vectors of 95_test_vectors.md -/

/-- E1. -/
theorem test_decode_writeDisable : decode 0b00000000000000000000000_1_00_000000#32 = .command .writeDisable := by decide

/-- E2. -/
theorem test_decode_writeAll :
    decode 0b0000000_1_00_000001_1010010101011010#32 = .command (.writeAll 0xA55A#16) := by decide

/-- E5. -/
theorem test_decode_eraseAll : decode 0b00000000000000000000000_1_00_000010#32 = .command .eraseAll := by decide

/-- E6. -/
theorem test_decode_writeEnable : decode 0b00000000000000000000000_1_00_000011#32 = .command .writeEnable := by decide

/-- E8, E10. -/
theorem test_decode_writeShort :
    decode 0b0000000_1_01_000101_0001001000110100#32 = .command (.writeShort 5#6 0x1234#16) ∧
    decode 0b0000000_1_01_101010_1000000000000001#32 = .command (.writeShort 0x2A#6 0x8001#16) := by decide

/-- E12, E14. -/
theorem test_decode_readShort :
    decode 0b00000000000000000000000_1_10_000101#32 = .command (.readShort 5#6) ∧
    decode 0b00000000000000000000000_1_10_101010#32 = .command (.readShort 0x2A#6) := by decide

/-- E16, E17. -/
theorem test_decode_eraseShort :
    decode 0b00000000000000000000000_1_11_000101#32 = .command (.eraseShort 5#6) ∧
    decode 0b00000000000000000000000_1_11_111111#32 = .command (.eraseShort 63#6) := by decide

/-- R85: values outside the set of R79 are no command: no start bit, a field no selector uses, a bit above the start bit, low zeros
after a group without data (the layouts 90_conflicts.md C3 rejects). -/
theorem test_decode_rejects :
    decode 0x00000000#32 = .rejected .notACommandWord ∧ decode 0x00000104#32 = .rejected .notACommandWord ∧
    decode 0x00000300#32 = .rejected .notACommandWord ∧ decode 0x01000000#32 = .rejected .notACommandWord ∧
    decode 0x80000000#32 = .rejected .notACommandWord ∧ decode 0x01020000#32 = .rejected .notACommandWord := by decide

/-- The E vectors' words. -/
theorem test_encode_vectors :
    encode .writeDisable = 0x00000100#32 ∧ encode (.writeAll 0xFFFF#16) = 0x0101FFFF#32 ∧ encode .eraseAll = 0x00000102#32 ∧
    encode .writeEnable = 0x00000103#32 ∧ encode (.writeShort 63#6 0xFFFF#16) = 0x017FFFFF#32 ∧
    encode (.readShort 63#6) = 0x000001BF#32 ∧ encode (.eraseShort 0#6) = 0x000001C0#32 := by decide

/-- 95_test_vectors.md section 2.3, the row `ND_SHIFT` = 23, `SUBOP_SHIFT` = 4. -/
theorem test_encode_other_constants :
    encodeWith 23 4 .writeDisable = 0x80000000#32 ∧ encodeWith 23 4 (.writeAll 0x1234#16) = 0x01101234#32 ∧
    encodeWith 23 4 .eraseAll = 0x90000000#32 ∧ encodeWith 23 4 .writeEnable = 0x98000000#32 ∧
    encodeWith 23 4 (.writeShort 5#6 0x1234#16) = 0x01451234#32 ∧ encodeWith 23 4 (.readShort 5#6) = 0xC2800000#32 ∧
    encodeWith 23 4 (.eraseShort 5#6) = 0xE2800000#32 := by decide

/-- E8's last column, as sent. -/
theorem test_wire_order :
    wireBits 0x01451234#32 =
      [0, 0, 0, 0, 0, 0, 0, 1, 0, 1, 0, 0, 0, 1, 0, 1, 0, 0, 0, 1, 0, 0, 1, 0, 0, 0, 1, 1, 0, 1, 0, 0] := by decide

/-- A bit string that is not 32 bits long is rejected by name (R83). -/
theorem test_wire_length : decodeWire (List.replicate 31 0#1) = .rejected .wrongLength := by decide

/-- E1 and E12 with other operands on the port: ignored (R81). -/
theorem test_port_ignored_operands :
    portWord { kind := 0#3, addr := 63#6, data := 0xFFFF#16 } = some 0x00000100#32 ∧
    portWord { kind := 5#3, addr := 5#6, data := 0xFFFF#16 } = some 0x00000185#32 := by decide

/-! ## Single steps -/

/-- The reset state in another phase. -/
def inPhase (p : Phase) : State := { State.reset with ph := p }

/-- An idle engine with a command presented. -/
def offered (i : Instr) (wantsRead : Bit) : State := present { instr := i, wantsRead := wantsRead } State.reset

/-- What one step leaves, looked at through `f`. -/
def afterStep {α : Type} (f : State → α) (s : State) : Option α := (nextOf (step s)).map f

/-- 95_test_vectors.md section 2.5, step 0. -/
theorem test_writeEnable_start :
    afterStep (fun t => (t.ph, t.lines, t.retry, t.sr)) (offered .writeEnable 0#1) =
      some (.settle, resetLines, 0#7, 0x00000103#32) := by decide

/-- R27, R142: the read flag is latched for any command. -/
theorem test_writeAll_start :
    afterStep (fun t => (t.sr, t.wr)) (offered (.writeAll 0xA55A#16) 1#1) = some (0x0101A55A#32, 1#1) := by decide

theorem test_writeDisable_start : afterStep (·.sr) (offered .writeDisable 0#1) = some 0x00000100#32 := by decide

theorem test_eraseAll_start : afterStep (·.sr) (offered .eraseAll 0#1) = some 0x00000102#32 := by decide

theorem test_writeShort_start : afterStep (·.sr) (offered (.writeShort 5#6 0x1234#16) 0#1) = some 0x01451234#32 := by decide

theorem test_readShort_start : afterStep (·.sr) (offered (.readShort 5#6) 1#1) = some 0x00000185#32 := by decide

/-- R103: a start clears the last failure; P2's command 3. -/
theorem test_eraseShort_start :
    afterStep (fun t => (t.sr, t.done, t.timeout))
      { offered (.eraseShort 7#6) 0#1 with done := 1#1, timeout := 1#1 } = some (0x000001C7#32, 0#1, 0#1) := by decide

/-- The table's word is what the step after `withFetchWord` runs. -/
theorem test_fetchWord :
    decodeTableWord 32 0x01451234 = some (.writeShort 5#6 0x1234#16) ∧
    afterStep (·.sr) (State.reset.withFetchWord 32 0x01451234) = some 0x01451234#32 ∧
    afterStep (·.sr) (State.reset.withFetchWord 32 0x00000107) = none := by decide

/-- Section 2.5, step 8 (ready sample): `DOUT` takes `SR[31]`. -/
theorem test_ready_sample :
    afterStep (fun t => (t.ph, t.dout, t.bitCnt, t.answers))
      { inPhase .pollSample with cs := 1#1, sr := 0x80000000#32, answers := [1#1, 0#1] } =
      some (.txSetup, 1#1, 0#6, [0#1]) := by decide

/-- Section 2.5, step 4 (busy sample). -/
theorem test_busy_sample :
    afterStep (fun t => (t.ph, t.cs, t.retry))
      { inPhase .pollSample with cs := 1#1, answers := [0#1] } = some (.pollBackoff, 0#1, 1#7) := by decide

/-- R193, the corner of the budget: after 110 busy iterations there is one more, after 111 the failure. -/
theorem test_budget_corner :
    afterStep (fun t => (t.ph, t.timeout, t.done)) { inPhase .pollBackoff with retry := 110#7 } = some (.pollSel, 0#1, 0#1) ∧
    afterStep (fun t => (t.ph, t.timeout, t.done)) { inPhase .pollBackoff with retry := 111#7 } = some (.idle, 1#1, 1#1) := by
  decide

/-- Section 2.5, steps 56 and 72: the next bit, and the end of the bits. -/
theorem test_transmit_fall :
    afterStep (fun t => (t.ph, t.dout, t.bitCnt, t.sr))
      { inPhase .txHi with sr := 0x81800000#32, bitCnt := 23#6 } = some (.txSetup, 0#1, 24#6, 0x03000000#32) ∧
    afterStep (fun t => (t.ph, t.dout, t.bitCnt, t.sr))
      { inPhase .txHi with sr := 0x80000000#32, bitCnt := 31#6, dout := 1#1 } = some (.csHold, 1#1, 32#6, 0x00000000#32) := by
  decide

/-- R111, second branch: the read phase follows with `RX` cleared and `DOUT` low. -/
theorem test_read_phase_entry :
    afterStep (fun t => (t.ph, t.dout, t.bitCnt, t.rx))
      { inPhase .txHi with bitCnt := 31#6, dout := 1#1, wr := 1#1, rx := 0xFFFF#16 } = some (.rxSetup, 0#1, 0#6, 0#16) := by
  decide

/-- Section 2.6: the seventeenth sample, and the dummy bit falling off the top. -/
theorem test_receive_shift :
    shiftIn 0x091A#16 0#1 = 0x1234#16 ∧ shiftIn 0x8000#16 0#1 = 0x0000#16 ∧ shiftIn 0xFFFF#16 1#1 = 0xFFFF#16 := by decide

/-- R210: reset in mid-transaction drops the pins at once, with a start on the port. -/
theorem test_reset_edge :
    afterStep (fun t => (t.ph, t.cs, t.sk, t.done))
      { inPhase .txHi with cs := 1#1, sk := 1#1, port := { HostPort.quiet with rst := 1#1, start := 1#1 } } =
      some (.idle, 0#1, 0#1, 0#1) := by decide

/-- K2: a start in `TX_HI` is ignored. -/
theorem test_start_while_busy :
    afterStep (fun t => (t.ph, t.sr)) { inPhase .txHi with sr := 1#32, port := (offered .writeEnable 0#1).port } =
      some (.txSetup, 2#32) := by decide

/-- R31, U3: `RESULT` has no value to read until it is valid. -/
theorem test_result_not_valid : (readResult State.reset).isOk = false := by decide

/-! ## Codec vectors -/

/-- H2 and H7. -/
theorem test_records :
    writeRecord (recordOf 0 0x1234#16) = [':', '0', '2', '0', '0', '0', '0', '0', '0', '3', '4', '1', '2', 'B', '8'] ∧
    writeRecord (recordOf 63 0xA55A#16) = [':', '0', '2', '0', '0', '3', 'F', '0', '0', '5', 'A', 'A', '5', 'C', '0'] := by
  decide

/-- X8's record and X3, X4, X6. -/
theorem test_data_lines :
    lineAction [':', '0', '2', '0', '0', '0', '0', '0', '0', '2', '0', '2', '0', 'B', 'E'] = .store 0#6 0x2020#16 ∧
    lineAction [':', '0', '2', '0', '0', '4', '0', '0', '0', '2', '0', '2', '0', '7', 'E'] = .diagnose .invalidDataRecord ∧
    lineAction [':', '0', '2', '0', '0', '0', '0', '0', '0', '2', '0', '2', '0', 'B', 'F'] = .diagnose .invalidDataRecord ∧
    lineAction [':', '0', '3', '0', '0', '0', '4', '0', '0', '2', '0', '2', '0', 'B', '9'] = .diagnose .invalidDataRecord := by
  decide

/-- Section 2.8: lower-case end of file, and the other diagnostics. -/
theorem test_other_lines :
    lineAction [':', '0', '0', '0', '0', '0', '0', '0', '1', 'f', 'f'] = .stop ∧
    lineAction [':', '0', '2', '0', '0', '0', '0', '0', '0', '2', '0'] = .diagnose .invalidEofRecord ∧
    lineAction ['0', '2', '0', '0', '0', '0', '0', '0', '2', '0', '2', '0', 'B', 'E'] = .diagnose .missingColonPrefix ∧
    lineAction [':', '0', '2', '0', '0', '0', '0', '0', '2', '0', '2'] = .diagnose .invalidEofRecord ∧
    lineAction [':', '0', '2', '0', '0', '0', '0', '0', '2', '0', '2', '0'] = .diagnose .wrongRecordLength ∧
    lineAction [':', '0', '2', '0', '0', '0', '0', '0', '0', '2', '0', 'Z', 'Z', 'B', 'E'] = .diagnose .nonHexCharacter := by
  decide

/-- Scenario X8: register 0 holds 0x2020, register 1 is unpopulated, no diagnostic, and a line after the end-of-file record is not
processed (X5). -/
theorem test_parse_scenario :
    let lines : List Line :=
      [[':', '0', '2', '0', '0', '0', '0', '0', '0', '2', '0', '2', '0', 'B', 'E'], eofRecord, ['Z']]
    (parse lines).2 = [] ∧ (parse lines).1.get 0#6 = 0x2020#16 ∧ (parse lines).1.isPopulated 0#6 = true ∧
    (parse lines).1.isPopulated 1#6 = false := by decide

/-! ## Witnesses: concrete states that meet the hypotheses of each statement -/

/-- A device that says ready at once and then answers a read with all ones. -/
def readyAnswers : List Bit := List.replicate 18 1#1

/-- An idle engine with a command presented, the device ready at once. -/
def offeredReady (i : Instr) (wantsRead : Bit) : State := { offered i wantsRead with answers := readyAnswers }

/-- An idle engine with a command presented, the device busy for as long as the budget lasts. -/
def offeredBusy (i : Instr) : State := { offered i 0#1 with answers := List.replicate 111 0#1 }

theorem witness_DecodedWordsAreEncodings : decode 0x000001FF#32 = .command (.eraseShort 63#6) := by decide

/-- Boundary kinds of both clauses. -/
theorem witness_UncarriedOperandsIgnored :
    (3#3).toNat ≤ 3 ∧ (6#3 = 0#3 ∨ 6#3 = 2#3 ∨ 6#3 = 3#3 ∨ 6#3 = 5#3 ∨ 6#3 = 6#3) := by decide

theorem witness_KindCodesOfThePort : (3#3).toNat ≤ 3 ∧ 4 ≤ (4#3).toNat ∧ (6#3).toNat ≤ 6 := by decide

theorem witness_ResetOverridesEveryEdge :
    ({ inPhase .txHi with port := { HostPort.quiet with rst := 1#1 } } : State).port.rst = 1#1 := by decide

theorem witness_StartOnlyCountsInIdle :
    State.reset.ph = .idle ∧ State.reset.port.rst = 0#1 ∧ State.reset.port.start = 0#1 ∧
    (inPhase .settle).ph ≠ .idle ∧ (inPhase .settle).port.rst = 0#1 ∧ (offered .eraseAll 0#1).port.rst = 0#1 := by decide

/-- An idle engine with the reserved kind presented. -/
def offeredReserved : State := State.reset.withFetchWord 32 0

theorem witness_ReservedKindRefused :
    offeredReserved.ph = .idle ∧ offeredReserved.port.rst = 0#1 ∧ offeredReserved.port.start = 1#1 ∧
    offeredReserved.port.command.kind = 7#3 := by decide

theorem witness_StepRunsThePortsCommand :
    let s := offered (.writeShort 63#6 0xFFFF#16) 1#1
    s.port.rst = 0#1 ∧ s.port.start = 1#1 ∧ decodePort s.port.command = .command (.writeShort 63#6 0xFFFF#16) := by decide

theorem witness_StepRunsThePlacedWord : State.reset.ph = .idle := by decide

theorem witness_AcceptedStartWrites : Accepts (offered (.readShort 5#6) 1#1) (.readShort 5#6) := by decide

theorem witness_SelectorCommandsStart : (offered .writeEnable 0#1).ph = .idle := by decide

theorem witness_AddressedCommandsStart : (offered (.eraseShort 63#6) 0#1).ph = .idle := by decide

theorem witness_CommandStartFrame :
    (offered .eraseAll 0#1).ph = .idle ∧ (nextOf (exec .eraseAll (offered .eraseAll 0#1))).isSome = true := by decide

/-- `RunsTransaction`'s hypotheses, with a device ready at once. -/
theorem witness_SelectorCommandsRunTheirTransactions :
    (offeredReady .writeDisable 1#1).ph = .idle ∧ NoReset (offeredReady .writeDisable 1#1) := by decide

/-- `RunsTransaction`'s hypotheses, with a device busy for the whole budget. -/
theorem witness_AddressedCommandsRunTheirTransactions :
    (offeredBusy (.readShort 0#6)).ph = .idle ∧ NoReset (offeredBusy (.readShort 0#6)) := by decide

/-- Every row of the table, at the boundary values of its counters, goes where R100 says. -/
theorem witness_PhaseTransitionTable :
    afterStep (·.ph) (offered .writeEnable 0#1) = some .settle ∧ afterStep (·.ph) State.reset = some .idle ∧
    afterStep (·.ph) (inPhase .settle) = some .pollSel ∧ afterStep (·.ph) (inPhase .pollSel) = some .pollHi ∧
    afterStep (·.ph) (inPhase .pollHi) = some .pollSample ∧
    afterStep (·.ph) { inPhase .pollSample with answers := [1#1] } = some .txSetup ∧
    afterStep (·.ph) { inPhase .pollSample with answers := [0#1] } = some .pollBackoff ∧
    afterStep (·.ph) { inPhase .pollBackoff with retry := 110#7 } = some .pollSel ∧
    afterStep (·.ph) { inPhase .pollBackoff with retry := 111#7 } = some .idle ∧
    afterStep (·.ph) (inPhase .txSetup) = some .txHi ∧
    afterStep (·.ph) { inPhase .txHi with bitCnt := 30#6 } = some .txSetup ∧
    afterStep (·.ph) { inPhase .txHi with bitCnt := 31#6, wr := 1#1 } = some .rxSetup ∧
    afterStep (·.ph) { inPhase .txHi with bitCnt := 31#6, wr := 0#1 } = some .csHold ∧
    afterStep (·.ph) (inPhase .rxSetup) = some .rxHi ∧
    afterStep (·.ph) { inPhase .rxHi with bitCnt := 15#6 } = some .rxSetup ∧
    afterStep (·.ph) { inPhase .rxHi with bitCnt := 16#6 } = some .csHold ∧
    afterStep (·.ph) (inPhase .csHold) = some .csOff ∧ afterStep (·.ph) (inPhase .csOff) = some .idle := by decide

theorem witness_SelectAndPollPulse :
    (inPhase .settle).port.rst = 0#1 ∧ (inPhase .settle).ph = .settle ∧ (inPhase .pollSel).ph = .pollSel ∧
    (inPhase .pollHi).ph = .pollHi := by decide

theorem witness_StatusSample :
    let ready : State := { inPhase .pollSample with answers := [1#1] }
    let busy : State := { inPhase .pollSample with answers := [0#1] }
    ready.port.rst = 0#1 ∧ ready.ph = .pollSample ∧ ready.answer 0 = Config.readyLevel ∧
    busy.port.rst = 0#1 ∧ busy.ph = .pollSample ∧ busy.answer 0 ≠ Config.readyLevel := by decide

theorem witness_BackoffRetriesOrTimesOut :
    ({ inPhase .pollBackoff with retry := 110#7 } : State).retry.toNat < 111 ∧
    ({ inPhase .pollBackoff with retry := 111#7 } : State).retry.toNat = 111 ∧ (inPhase .pollBackoff).port.rst = 0#1 := by decide

theorem witness_TransmitPulse :
    ({ inPhase .txHi with bitCnt := 30#6 } : State).bitCnt.toNat + 1 < 32 ∧
    ({ inPhase .txHi with bitCnt := 31#6, wr := 1#1 } : State).bitCnt.toNat + 1 = 32 ∧
    (inPhase .txHi).wr = 0#1 ∧ (inPhase .txSetup).ph = .txSetup ∧ (inPhase .txHi).port.rst = 0#1 := by decide

theorem witness_ReceivePulse :
    ({ inPhase .rxHi with bitCnt := 15#6 } : State).bitCnt.toNat + 1 < 17 ∧
    17 ≤ ({ inPhase .rxHi with bitCnt := 16#6 } : State).bitCnt.toNat + 1 ∧
    17 ≤ ({ inPhase .rxHi with bitCnt := 32#6 } : State).bitCnt.toNat + 1 ∧
    (inPhase .rxSetup).ph = .rxSetup ∧ (inPhase .rxHi).port.rst = 0#1 := by decide

theorem witness_DeselectAndSucceed :
    (inPhase .csHold).ph = .csHold ∧ (inPhase .csOff).ph = .csOff ∧ (inPhase .csOff).wr = 0#1 ∧
    ({ inPhase .csOff with wr := 1#1 } : State).wr = 1#1 ∧ (inPhase .csOff).port.rst = 0#1 := by decide

/-- A state just before the failure. -/
def exhausted : State := { inPhase .pollBackoff with retry := 111#7 }

theorem witness_DeviceTimeoutEntry :
    MachineInvariant exhausted ∧ exhausted.port.rst = 0#1 ∧ exhausted.ph = .pollBackoff ∧ exhausted.retry.toNat = 111 := by decide

theorem witness_TimeoutRaisedOnlyByExhaustedBackoff :
    exhausted.timeout = 0#1 ∧ afterStep (·.timeout) exhausted = some 1#1 := by decide

theorem witness_NeverReadyTimesOut :
    Accepts (offeredBusy .writeEnable) .writeEnable ∧ NoReset (offeredBusy .writeEnable) ∧
    ∀ k, k < 111 → (offeredBusy .writeEnable).answer k ≠ Config.readyLevel := by decide

/-- A state in the middle of shift-out that meets the invariant. -/
def shiftingOut : State :=
  { inPhase .txHi with cs := 1#1, sk := 1#1, dout := 1#1, sr := 0x81800000#32, bitCnt := 31#6, wr := 1#1 }

theorem witness_StepKeepsInvariant : MachineInvariant shiftingOut ∧ (nextOf (step shiftingOut)).isSome = true := by decide

theorem witness_StepKeepsTraceMatchingLines :
    let s : State := { shiftingOut with trace := [.cs 1#1, .dout 1#1, .sk 1#1] }
    TraceMatchesLines s ∧ (nextOf (step s)).isSome = true := by decide

theorem witness_ResultWrittenOnlyAtSuccessfulRead :
    let s : State := { inPhase .csOff with wr := 1#1, rx := 0x1234#16 }
    s.port.rst = 0#1 ∧ afterStep (·.result) s = some 0x1234#16 ∧ s.result ≠ 0x1234#16 := by decide

theorem witness_LatchedAtTheAcceptedStartOnly :
    (offered .writeEnable 1#1).port.rst = 0#1 ∧ (offered .writeEnable 1#1).wr ≠ 1#1 ∧
    afterStep (fun t => (t.wr, t.sr)) (offered .writeEnable 1#1) = some (1#1, 0x103#32) ∧
    afterStep (·.sr) { inPhase .txHi with sr := 1#32 } = some 2#32 := by decide

theorem witness_DinIgnoredOutsideSampling :
    (inPhase .rxHi).port.rst = 0#1 ∧ (inPhase .rxHi).ph ≠ .pollSample ∧ (inPhase .rxHi).ph ≠ .rxSetup ∧
    (nextOf (step (inPhase .rxHi))).isSome = true := by decide

theorem witness_StatusPortReadings :
    let failed : State := { State.reset with done := 1#1, timeout := 1#1 }
    let read : State := { State.reset with done := 1#1, resultValid := 1#1, result := 0x1234#16 }
    let silent : State := { State.reset with done := 1#1 }
    State.reset.transactResult = .notEnded ∧ failed.transactResult = .failed .deviceTimeout ∧
    read.transactResult = .success (some 0x1234#16) ∧ silent.transactResult = .success none := by decide

theorem witness_ChipSelectPinLevel : shiftingOut.csPin = 1#1 ∧ State.reset.csPin = 0#1 := by decide

/-- R103's drives of lines that are low already carry nothing; the wait and the select do. -/
theorem witness_IdleDrivesCarryNothing :
    withoutIdleDrives resetLines [.dout 0#1, .sk 0#1, .dwell .tSettle, .cs 1#1, .sample 0#1, .cs 1#1] =
      [.dwell .tSettle, .cs 1#1, .sample 0#1] ∧
    sameBehaviour resetLines [.dout 0#1, .sk 0#1, .cs 1#1] [.cs 1#1] = true ∧
    sameBehaviour resetLines [.cs 1#1, .sample 1#1] [.cs 1#1] = false := by decide

theorem witness_EveryTransactionEnds :
    MachineInvariant shiftingOut ∧ NoReset shiftingOut ∧ shiftingOut.ph ≠ .idle := by decide

/-- Both ways a transaction can go. -/
theorem witness_TransactionEqualsBigStep :
    Accepts (offeredReady (.readShort 5#6) 1#1) (.readShort 5#6) ∧ NoReset (offeredReady (.readShort 5#6) 1#1) ∧
    Accepts (offeredBusy .eraseAll) .eraseAll ∧ NoReset (offeredBusy .eraseAll) := by decide

theorem witness_RegistersAfterSuccess :
    Accepts (offeredReady .writeEnable 0#1) .writeEnable ∧ NoReset (offeredReady .writeEnable 0#1) ∧
    busyBefore (offeredReady .writeEnable 0#1).answer = some 0 ∧ (offeredReady .writeEnable 0#1).port.wantsRead = 0#1 ∧
    Accepts (offeredReady .writeEnable 1#1) .writeEnable ∧ (offeredReady .writeEnable 1#1).port.wantsRead = 1#1 := by decide

theorem witness_HostTransactionEnds : State.reset.ph = .idle := by decide

/-- The cases the counts speak of, at the corner of the budget (vectors T6, T7). -/
theorem witness_TransactionCounts :
    busyBefore (fun _ => 0#1) = none ∧ busyBefore (fun k => if k = 110 then 1#1 else 0#1) = some 110 := by decide

/-- A device ready only at its 112th answer is never asked for it (P5), and one ready at once. -/
theorem witness_DeviceTakesExactlyTheWord :
    busyBefore (fun k => if k = 111 then 1#1 else 0#1) = none ∧ busyBefore (fun _ => 1#1) = some 0 := by decide

/-- Vector M3's three busy iterations, and a timeout. -/
theorem witness_MinimumDurations :
    busyBefore (fun k => if k = 3 then 1#1 else 0#1) = some 3 ∧ busyBefore (fun _ => 0#1) = none := by decide

theorem witness_DwellIsServed :
    let s : State := { shiftingOut with waitCnt := 3 }
    NoReset s ∧ s.ph ≠ .idle ∧ max 1 s.waitCnt = 3 := by decide

theorem witness_BadOperandsNeverReachTheEngine : (DispatcherCall.write 63 65536).wellFormed = false := by decide

theorem witness_DispatcherReadReturnsTheValueRead :
    (offeredReady .eraseAll 0#1).ph = .idle ∧ busyBefore (offeredReady .eraseAll 0#1).answer = some 0 := by decide

/-- H7: the line of register 63 holding 0xA55A, in a store with that register alone populated; and two stores that differ in a populated
flag alone, where the last clause's premise holds. -/
theorem witness_RecordChecksumLaw :
    (serialize (RegisterStore.fresh.set 63#6 0xA55A#16))[63]? =
      some [':', '0', '2', '0', '0', '3', 'F', '0', '0', '5', 'A', 'A', '5', 'C', '0'] ∧
    ∀ a, RegisterStore.fresh.get a = (RegisterStore.fresh.set 0#6 Config.storeSentinel).get a := by
  refine ⟨by decide, fun a => ?_⟩
  simp only [RegisterStore.fresh, RegisterStore.get, RegisterStore.at, RegisterStore.set, Vector.getElem_set]
  split <;> simp [freshRegister]

/-- A store with all 64 registers populated. -/
def fullStore : RegisterStore := { registers := Vector.replicate 64 { value := 0#16, populated := true } }

theorem witness_SerializeParseRoundTrip : fullStore.allPopulated = true := by decide

/-- A full store, and the store at process start, which has nothing populated. -/
theorem witness_ExportNeedsEveryRegister :
    fullStore.allPopulated = true ∧ RegisterStore.fresh.allPopulated = false := by decide

/-- A failed engine with a command presented, and the step that raises the failure. -/
theorem witness_FailureLastsUntilNextStart :
    let s : State := { offered .writeEnable 0#1 with timeout := 1#1, done := 1#1 }
    s.port.rst = 0#1 ∧ s.ph = .idle ∧ s.port.start = 1#1 ∧ s.timeout = 1#1 ∧ afterStep (·.timeout) s = some 0#1 ∧
    exhausted.port.rst = 0#1 ∧ exhausted.timeout = 0#1 ∧ afterStep (·.timeout) exhausted = some 1#1 := by decide

end Sys2Proof.Tests
end

section
/-! PROOFS. The pin trace follows the pins: whatever a step drives, it also records (R10, R28). -/

namespace Sys2Proof.Machine

/-! ## The output lines under the shared updates of State -/

@[simp] theorem lines_emit (es : List PinEvent) (s : State) : (emit es s).lines = s.lines := rfl

@[simp] theorem lines_advanceHost (s : State) : (advanceHost s).lines = s.lines := by simp [State.lines]

@[simp] theorem lines_sampled (s : State) : s.sampled.lines = s.lines := by simp [State.lines]

/-! ## Going on with the drives recorded -/

/-- From `s` to `t` the trace grew by events that drive the lines of `s` to those of `t`. -/
def TraceFollows (s t : State) : Prop := ∃ es, t.trace = s.trace ++ es ∧ t.lines = linesAfter s.lines es

theorem TraceFollows.refl (s : State) : TraceFollows s s := ⟨[], (List.append_nil _).symm, rfl⟩

/-- Only the trace and the lines of the first state count. -/
theorem TraceFollows.congr_left {s s' t : State} (htrace : s'.trace = s.trace) (hlines : s'.lines = s.lines)
    (h : TraceFollows s' t) : TraceFollows s t := by
  obtain ⟨es, ht, hl⟩ := h
  exact ⟨es, htrace ▸ ht, hlines ▸ hl⟩

/-- The host's signals are no part of what was seen on the lines. -/
theorem TraceFollows.advanceHost {s t : State} (h : TraceFollows s t) : TraceFollows s (advanceHost t) := by
  obtain ⟨es, ht, hl⟩ := h
  exact ⟨es, by simpa using ht, by simpa using hl⟩

/-- A trace that agreed with the lines still does. -/
theorem TraceFollows.keeps_traceMatchesLines {s t : State} (h : TraceFollows s t) (hs : TraceMatchesLines s) :
    TraceMatchesLines t := by
  obtain ⟨es, ht, hl⟩ := h
  calc linesAfter resetLines t.trace
      = linesAfter (linesAfter resetLines s.trace) es := by rw [ht, linesAfter_append]
    _ = linesAfter s.lines es := by rw [hs]
    _ = t.lines := hl.symm

/-! ## Every rule records its drives -/

theorem acceptedStart_traceFollows (w : TxWord) (s : State) : TraceFollows s (acceptedStart w s) := ⟨_, rfl, rfl⟩

/-- A reset edge drives all three lines, so its events leave the reset levels whatever the lines were (log 11). -/
theorem resetEdge_traceFollows (s : State) : TraceFollows s (resetEdge s) := ⟨_, rfl, rfl⟩

theorem pollReady_traceFollows (b : Bit) (s : State) : TraceFollows s (pollReady b s) := ⟨_, rfl, rfl⟩

theorem pollBusy_traceFollows (b : Bit) (s : State) : TraceFollows s (pollBusy b s) := ⟨_, rfl, rfl⟩

theorem exitPollSample_traceFollows (s : State) : TraceFollows s (exitPollSample s) := by
  refine TraceFollows.congr_left (sampled_trace s) (lines_sampled s) ?_
  by_cases h : s.sample = Config.readyLevel
  · rw [exitPollSample_of_ready h]
    exact pollReady_traceFollows ..
  · rw [exitPollSample_of_busy h]
    exact pollBusy_traceFollows ..

theorem exitPollBackoff_traceFollows (s : State) : TraceFollows s (exitPollBackoff s) := by
  by_cases h : s.retry.toNat < Config.retryBudget
  · rw [exitPollBackoff_of_lt h]
    exact ⟨_, rfl, rfl⟩
  · rw [exitPollBackoff_of_exhausted h]
    exact ⟨_, rfl, rfl⟩

theorem exitTxHi_traceFollows (s : State) : TraceFollows s (exitTxHi s) := by
  by_cases h : (s.bitCnt + 1#6).toNat < Config.txWidth
  · rw [exitTxHi_of_more h]
    exact ⟨_, List.append_assoc .., rfl⟩
  by_cases hw : s.wr = 1#1
  · rw [exitTxHi_of_read h hw]
    exact ⟨_, List.append_assoc .., rfl⟩
  · rw [exitTxHi_of_done h hw]
    exact ⟨_, rfl, rfl⟩

theorem exitRxSetup_traceFollows (s : State) : TraceFollows s (exitRxSetup s) :=
  TraceFollows.congr_left (sampled_trace s) (lines_sampled s) ⟨_, rfl, rfl⟩

theorem phaseExit_traceFollows (s : State) : TraceFollows s (phaseExit s) := by
  cases hph : s.ph <;> simp only [phaseExit, hph]
  case idle => exact TraceFollows.refl s
  case pollSample => exact exitPollSample_traceFollows s
  case pollBackoff => exact exitPollBackoff_traceFollows s
  case txHi => exact exitTxHi_traceFollows s
  case rxSetup => exact exitRxSetup_traceFollows s
  case settle | pollSel | pollHi | txSetup | rxHi | csHold | csOff => exact ⟨_, rfl, rfl⟩

theorem step_traceFollows {s t : State} (h : step s = .next t) : TraceFollows s t := by
  obtain ⟨-, rfl⟩ | ⟨-, -, -, i, -, rfl⟩ | ⟨-, -, -, rfl⟩ | ⟨-, -, rfl⟩ := step_next_cases h
  · exact (resetEdge_traceFollows s).advanceHost
  · exact (acceptedStart_traceFollows (encode i) s).advanceHost
  · exact (TraceFollows.refl s).advanceHost
  · exact (phaseExit_traceFollows s).advanceHost

/-- Settles O34: every step appends to the trace events that drive the lines from its old levels to its new ones, so a trace that
agreed with the pins still does; the events of a reset edge are the model's own (log 11). -/
theorem stepKeepsTraceMatchingLines : Obligations.StepKeepsTraceMatchingLines :=
  fun _ _ hs hstep => (step_traceFollows hstep).keeps_traceMatchesLines hs

end Sys2Proof.Machine
end

section
/-! PROOFS. Idle drives carry nothing: what a trace without them keeps (R10). -/

namespace Sys2Proof.Machine

/-! ## withoutIdleDrives, event by event -/

@[simp] theorem withoutIdleDrives_nil (l : Lines) : withoutIdleDrives l [] = [] := rfl

theorem withoutIdleDrives_cons_of_idle {l : Lines} {e : PinEvent} (h : isIdleDrive l e = true) (es : List PinEvent) :
    withoutIdleDrives l (e :: es) = withoutIdleDrives l es := if_pos h

theorem withoutIdleDrives_cons_of_not_idle {l : Lines} {e : PinEvent} (h : ¬ isIdleDrive l e = true)
    (es : List PinEvent) :
    withoutIdleDrives l (e :: es) = e :: withoutIdleDrives (applyEvent l e) es := if_neg h

/-! ## What is kept -/

/-- What is kept, each event with its levels, is what tells: dropping an idle drive moves no later level. -/
theorem withLevels_withoutIdleDrives (l : Lines) (es : List PinEvent) :
    withLevels l (withoutIdleDrives l es) = (withLevels l es).filter tells := by
  induction es generalizing l with
  | nil => rfl
  | cons e es ih =>
    by_cases h : isIdleDrive l e = true
    · have hsilent : ¬ tells (l, e) = true := by simpa [isIdleDrive_eq_not_tells] using h
      rw [withoutIdleDrives_cons_of_idle h, ih, withLevels_cons, List.filter_cons_of_neg hsilent, applyEvent_of_idle h]
    · have htells : tells (l, e) = true := by simpa [isIdleDrive_eq_not_tells] using h
      rw [withoutIdleDrives_cons_of_not_idle h, withLevels_cons, ih, withLevels_cons, List.filter_cons_of_pos htells]

/-- What is kept, as a selection among the events with their levels. -/
theorem withoutIdleDrives_eq_map_filter (l : Lines) (es : List PinEvent) :
    withoutIdleDrives l es = ((withLevels l es).filter tells).map Prod.snd := by
  rw [← withLevels_withoutIdleDrives, withLevels_events]

theorem not_isIdleDrive_of_mem_withoutIdleDrives {l : Lines} {es : List PinEvent} {p : Lines × PinEvent}
    (h : p ∈ withLevels l (withoutIdleDrives l es)) : isIdleDrive p.1 p.2 = false := by
  rw [withLevels_withoutIdleDrives] at h
  simp [isIdleDrive_eq_not_tells, List.of_mem_filter h]

/-- Every event of a kind that always tells is kept, in order. -/
theorem filter_withoutIdleDrives {q : PinEvent → Bool} (hq : ∀ l e, q e = true → tells (l, e) = true) (l : Lines)
    (es : List PinEvent) : (withoutIdleDrives l es).filter q = es.filter q := by
  have hand : ∀ p : Lines × PinEvent, ((q ∘ Prod.snd) p && tells p) = (q ∘ Prod.snd) p := fun p => by
    simpa using hq p.1 p.2
  calc (withoutIdleDrives l es).filter q
      = (((withLevels l es).filter tells).filter (q ∘ Prod.snd)).map Prod.snd := by
        rw [withoutIdleDrives_eq_map_filter, List.filter_map]
    _ = ((withLevels l es).filter (q ∘ Prod.snd)).map Prod.snd := by
        rw [List.filter_filter, funext hand]
    _ = es.filter q := by rw [← List.filter_map, withLevels_events]

theorem linesAfter_withoutIdleDrives (l : Lines) (es : List PinEvent) :
    linesAfter l (withoutIdleDrives l es) = linesAfter l es := by
  induction es generalizing l with
  | nil => rfl
  | cons e es ih =>
    by_cases h : isIdleDrive l e = true
    · rw [withoutIdleDrives_cons_of_idle h, ih, linesAfter_cons, applyEvent_of_idle h]
    · rw [withoutIdleDrives_cons_of_not_idle h, linesAfter_cons, ih, linesAfter_cons]

theorem withoutIdleDrives_idem (l : Lines) (es : List PinEvent) :
    withoutIdleDrives l (withoutIdleDrives l es) = withoutIdleDrives l es := by
  rw [withoutIdleDrives_eq_map_filter, withLevels_withoutIdleDrives, List.filter_filter,
    withoutIdleDrives_eq_map_filter]
  simp

/-- The same behaviour is the same telling events at the same levels. -/
theorem sameBehaviour_iff (l : Lines) (es fs : List PinEvent) :
    sameBehaviour l es fs = true ↔ (withLevels l es).filter tells = (withLevels l fs).filter tells := by
  rw [sameBehaviour, beq_iff_eq]
  constructor
  · intro h
    rw [← withLevels_withoutIdleDrives, h, withLevels_withoutIdleDrives]
  · intro h
    rw [withoutIdleDrives_eq_map_filter, h, ← withoutIdleDrives_eq_map_filter]

/-- Settles O40: what is kept is the events that tell, each at its levels, and the other clauses follow from that. -/
theorem idleDrivesCarryNothing : Obligations.IdleDrivesCarryNothing := by
  intro l es
  refine ⟨withLevels_withoutIdleDrives l es, fun p hp => not_isIdleDrive_of_mem_withoutIdleDrives hp, ?_,
    linesAfter_withoutIdleDrives l es, withoutIdleDrives_idem l es, sameBehaviour_iff l es⟩
  exact filter_withoutIdleDrives (fun l e h => by simp only [tells, h, Bool.true_or]) l es

end Sys2Proof.Machine
end

section
/-! PROOFS. Facts the sections below share: line levels, the bits of a word, and the edges a run is made of. -/

namespace Sys2Proof.Machine

theorem bit_ne_one_iff {b : Bit} : ¬ b = 1#1 ↔ b = 0#1 := by
  rcases BitVec.eq_zero_or_eq_one b with rfl | rfl <;> decide

/-- A level is its own bit 0. -/
theorem bitAt_bit (b : Bit) : bitAt b 0 = b := by
  rw [bitAt, ← BitVec.setWidth_one, BitVec.setWidth_eq]

theorem bitAt_shiftLeft (w : TxWord) {i j : Nat} (h : i + j < 32) : bitAt (w <<< j) (i + j) = bitAt w i := by
  simp [bitAt, h, BitVec.getLsbD_eq_getElem (Nat.lt_of_le_of_lt (Nat.le_add_right i j) h)]

/-- Taking a sample changes the device's answers alone. -/
theorem sampled_eq (s : State) :
    s.sampled = { s with answers := s.sampled.answers, draws := s.sampled.draws } := by
  unfold State.sampled
  split <;> rfl

theorem step_of_accepts {s : State} {i : Instr} (h : Accepts s i) :
    step s = .next (advanceHost (acceptedStart (encode i) s)) := by
  obtain ⟨hp, hrst, hs, hd⟩ := h
  simp [step, presented, hrst, hs, hd, exec_eq_presentWord, presentWord_of_idle hp, afterEdge]

theorem NoReset.rst_ne_one {s : State} (h : NoReset s) : s.port.rst ≠ 1#1 := bit_ne_one_iff.mpr h.1

end Sys2Proof.Machine
end

section
/-! PROOFS. The reset state, the status port and the chip-select pin: what R38, R31 and R28 say can be read. -/

namespace Sys2Proof.Machine

/-! ## The status port -/

theorem busy_eq_one_iff (s : State) : s.busy = 1#1 ↔ s.ph ≠ .idle := by
  by_cases h : s.ph = .idle <;> simp [State.busy, h]

theorem transactResult_of_not_done {s : State} (hd : s.done = 0#1) : s.transactResult = .notEnded := by
  simp [State.transactResult, hd]

theorem transactResult_of_timeout {s : State} (hd : s.done = 1#1) (ht : s.timeout = 1#1) :
    s.transactResult = .failed .deviceTimeout := by
  simp [State.transactResult, hd, ht]

theorem transactResult_of_success {s : State} (hd : s.done = 1#1) (ht : s.timeout = 0#1) :
    s.transactResult = .success (if s.resultValid = 1#1 then some s.result else none) := by
  simp [State.transactResult, hd, ht]

theorem readResult_of_valid {s : State} (h : s.resultValid = 1#1) : readResult s = .ok s.result := if_pos h

theorem readResult_of_not_valid {s : State} (h : s.resultValid = 0#1) : readResult s = .error .resultNotValid := by
  simp [readResult, h]

/-- Settles O38: one reading of the status port per value of the flags (R31). -/
theorem statusPortReadings : Obligations.StatusPortReadings := fun s =>
  ⟨busy_eq_one_iff s, transactResult_of_not_done, transactResult_of_timeout,
    fun hd ht hv => by rw [transactResult_of_success hd ht, if_pos hv],
    fun hd ht hv => by simp [transactResult_of_success hd ht, hv],
    readResult_of_valid, readResult_of_not_valid⟩

/-! ## The chip-select pin -/

theorem csPin_of_selected {s : State} (h : s.cs = 1#1) : s.csPin = Config.csActiveLevel := if_pos h

theorem csPin_of_deselected {s : State} (h : s.cs = 0#1) : s.csPin = ~~~Config.csActiveLevel := by
  simp [State.csPin, h]

/-- Settles O39: the pin's level by the level of `CS` (R28). -/
theorem chipSelectPinLevel : Obligations.ChipSelectPinLevel := fun _ => ⟨csPin_of_selected, csPin_of_deselected⟩

/-! ## The reset state -/

/-- Settles O9: every value is a field of `State.reset`, and `busy` is read off its phase (R38). -/
theorem resetValues : Obligations.ResetValues := ⟨rfl, rfl, rfl, rfl, rfl, rfl, rfl, if_pos rfl⟩

/-- R39 at reset: idle with every pin, flag and counter 0 (log 4). -/
theorem machineInvariant_reset : MachineInvariant State.reset := by decide

/-- The empty trace of the reset state leaves the lines at their reset levels (log 11). -/
theorem traceMatchesLines_reset : TraceMatchesLines State.reset := rfl

/-- Settles O32, from the two facts above. -/
theorem resetMeetsInvariants : Obligations.ResetMeetsInvariants := ⟨machineInvariant_reset, traceMatchesLines_reset⟩

end Sys2Proof.Machine
end

section
/-! PROOFS. What the shift registers hold after their shifts (R23, R24, R121). -/

namespace Sys2Proof.Machine

/-! ## The receive register -/

theorem shiftIn_getLsbD_zero (rx : Data) (b : Bit) : (shiftIn rx b).getLsbD 0 = b.getLsbD 0 := by simp [shiftIn]

theorem shiftIn_getLsbD_succ (rx : Data) (b : Bit) {i : Nat} (hi : i + 1 < 16) :
    (shiftIn rx b).getLsbD (i + 1) = rx.getLsbD i := by
  simp [shiftIn, hi, BitVec.getLsbD_eq_getElem (Nat.lt_of_succ_lt hi)]

/-- After `n` samples bit `i` of `RX` is the sample taken `i` samples before the last one, or a bit that was there before. -/
theorem foldl_shiftIn_getLsbD (r : Nat → Bit) (rx : Data) (n : Nat) {i : Nat} (hi : i < 16) :
    (((List.range n).map r).foldl shiftIn rx).getLsbD i =
      if i < n then (r (n - 1 - i)).getLsbD 0 else rx.getLsbD (i - n) := by
  induction n generalizing i with
  | zero => rfl
  | succ n ih =>
    rw [List.range_succ, List.map_append, List.foldl_append, List.map_singleton, List.foldl_cons, List.foldl_nil]
    cases i with
    | zero => rw [shiftIn_getLsbD_zero, if_pos n.succ_pos]; rfl
    | succ i =>
      rw [shiftIn_getLsbD_succ _ _ hi, ih (Nat.lt_of_succ_lt hi)]
      simp [Nat.sub_sub, Nat.add_comm 1]

/-- Sixteen samples replace whatever `RX` held before. -/
theorem foldl_shiftIn_sixteen (r : Nat → Bit) (rx rx' : Data) :
    ((List.range 16).map r).foldl shiftIn rx = ((List.range 16).map r).foldl shiftIn rx' :=
  BitVec.eq_of_getLsbD_eq fun i hi => by simp only [foldl_shiftIn_getLsbD r _ 16 hi, if_pos hi]

/-- Doubling and adding a bit, modulo 2^16, is a shift of the receive register. -/
theorem ofNat_two_mul_add (a : Nat) (b : Bit) : BitVec.ofNat 16 (2 * a + b.toNat) = shiftIn (BitVec.ofNat 16 a) b := by
  refine BitVec.eq_of_getLsbD_eq fun i hi => ?_
  cases i with
  | zero =>
    rw [shiftIn_getLsbD_zero]
    simp [BitVec.getLsbD, Nat.testBit_zero]
  | succ i =>
    have hhalf : (2 * a + b.toNat) / 2 = a := by have := b.isLt; omega
    rw [shiftIn_getLsbD_succ _ _ hi, BitVec.getLsbD_ofNat, Nat.testBit_succ, hhalf, BitVec.getLsbD_ofNat,
      decide_eq_true hi, decide_eq_true (Nat.lt_of_succ_lt hi)]

/-- The value read is what the sixteen samples after the dummy leave in an empty register (R87). -/
theorem readValue_eq_foldl_shiftIn (r : Nat → Bit) :
    readValue r = ((List.range 16).map fun j => r (j + 1)).foldl shiftIn 0#16 := by
  rw [List.foldl_map]
  exact (List.foldl_hom (BitVec.ofNat 16) fun a j => (ofNat_two_mul_add a (r (j + 1))).symm).symm

/-- Seventeen samples: the dummy and the old bits are shifted out, the value read remains (R87, R121). -/
theorem foldl_shiftIn_seventeen (rx : Data) (r : Nat → Bit) : ((List.range 17).map r).foldl shiftIn rx = readValue r := by
  rw [List.range_succ_eq_map, List.map_cons, List.foldl_cons, List.map_map, readValue_eq_foldl_shiftIn]
  exact foldl_shiftIn_sixteen ..

/-! ## The transmit register -/

/-- Single shifts add up. -/
theorem foldl_shiftLeft_one (w : TxWord) (n : Nat) :
    (List.range n).foldl (fun (v : TxWord) _ => v <<< 1) w = w <<< n := by
  induction n with
  | zero => exact (BitVec.shiftLeft_zero w).symm
  | succ n ih =>
    rw [List.range_succ, List.foldl_append, ih]
    exact (BitVec.shiftLeft_add w n 1).symm

/-- Settles O48: the bit of each sample, the value they make, and the emptied transmit register. -/
theorem shiftRegisters : Obligations.ShiftRegisters := by
  refine ⟨fun rx r j hj => ?_, foldl_shiftIn_seventeen, fun w => ?_⟩
  · rw [bitAt, foldl_shiftIn_getLsbD r rx 17 (by omega), if_pos (by omega), show 17 - 1 - (15 - j) = j + 1 by omega]
    exact bitAt_bit (r (j + 1))
  · rw [foldl_shiftLeft_one]
    exact BitVec.shiftLeft_eq_zero (Nat.le_refl 32)

end Sys2Proof.Machine
end

section
/-! PROOFS. The invariant of R39: one table of what holds in each phase, kept by every kind of step. -/

namespace Sys2Proof.Machine

/-- R218: the flags during a transaction. -/
abbrev flagsClear (s : State) : Prop := s.done = 0#1 ∧ s.timeout = 0#1 ∧ s.resultValid = 0#1

/-- R39 with its phase facts as a table: the pins, counters, latch and flags of each phase. -/
def PhaseInvariant (s : State) : Prop :=
  countersBounded s ∧
  match s.ph with
  | .idle => s.cs = 0#1 ∧ s.sk = 0#1 ∧ flagsConsistent s
  | .settle => s.cs = 0#1 ∧ s.sk = 0#1 ∧ s.dout = 0#1 ∧ s.retry = 0#7 ∧ flagsClear s
  | .pollSel => s.cs = 1#1 ∧ s.sk = 0#1 ∧ s.dout = 0#1 ∧ s.retry.toNat < Config.retryBudget ∧ flagsClear s
  | .pollHi => s.cs = 1#1 ∧ s.sk = 1#1 ∧ s.dout = 0#1 ∧ s.retry.toNat < Config.retryBudget ∧ flagsClear s
  | .pollSample => s.cs = 1#1 ∧ s.sk = 0#1 ∧ s.dout = 0#1 ∧ s.retry.toNat < Config.retryBudget ∧ flagsClear s
  | .pollBackoff => s.cs = 0#1 ∧ s.sk = 0#1 ∧ s.dout = 0#1 ∧ flagsClear s
  | .txSetup => s.cs = 1#1 ∧ s.sk = 0#1 ∧ s.dout = bitAt s.sr 31 ∧ s.bitCnt.toNat < Config.txWidth ∧ flagsClear s
  | .txHi => s.cs = 1#1 ∧ s.sk = 1#1 ∧ s.dout = bitAt s.sr 31 ∧ s.bitCnt.toNat < Config.txWidth ∧ flagsClear s
  | .rxSetup => s.cs = 1#1 ∧ s.sk = 0#1 ∧ s.dout = 0#1 ∧ s.bitCnt.toNat < Config.rxBits ∧ s.wr = 1#1 ∧ flagsClear s
  | .rxHi => s.cs = 1#1 ∧ s.sk = 1#1 ∧ s.dout = 0#1 ∧ s.bitCnt.toNat < Config.rxBits ∧ s.wr = 1#1 ∧ flagsClear s
  | .csHold => s.cs = 1#1 ∧ s.sk = 0#1 ∧ flagsClear s
  | .csOff => s.cs = 0#1 ∧ s.sk = 0#1 ∧ flagsClear s

theorem flagsConsistent_of_flagsClear {s : State} : flagsClear s → flagsConsistent s := by
  rintro ⟨hdone, htimeout, hvalid⟩
  simp [flagsConsistent, hdone, htimeout, hvalid]

/-- The table is the invariant. -/
theorem machineInvariant_iff (s : State) : MachineInvariant s ↔ PhaseInvariant s := by
  have hflags := @flagsConsistent_of_flagsClear s
  unfold MachineInvariant EngineInvariant csMatchesPhase skMatchesPhase doutLowInPhase countersInPhase
    flagsClearWhileBusy doutHoldsNextBit readOnlyIfWanted PhaseInvariant
  cases hp : s.ph <;> simp [Phase.selected, Phase.clockHigh, Phase.doutLow, bit_ne_one_iff] <;> tauto

theorem phaseInvariant_advanceHost {s : State} (h : PhaseInvariant s) : PhaseInvariant (advanceHost s) := by
  unfold PhaseInvariant countersBounded flagsConsistent flagsClear at h ⊢
  simpa using h

/-- A reset edge: the bounds on the unspecified counters are the model's (log 6). -/
theorem phaseInvariant_resetEdge (s : State) : PhaseInvariant (resetEdge s) := by
  have hretry : (resetEdge s).retry.toNat ≤ Config.retryBudget :=
    (Nat.mod_le _ _).trans (Nat.le_of_lt_succ (Config.resetRetry s.draws).isLt)
  have hbits : (resetEdge s).bitCnt.toNat ≤ Config.txWidth :=
    (Nat.mod_le _ _).trans (Nat.le_of_lt_succ (Config.resetBitCnt s.draws).isLt)
  exact ⟨⟨hretry, hbits⟩, rfl, rfl, flagsConsistent_of_flagsClear ⟨rfl, rfl, rfl⟩⟩

theorem phaseInvariant_acceptedStart {s : State} (w : TxWord) (hp : s.ph = .idle) (h : PhaseInvariant s) :
    PhaseInvariant (acceptedStart w s) := by
  unfold PhaseInvariant at h
  rw [hp] at h
  obtain ⟨⟨-, hbits⟩, hcs, -, -⟩ := h
  exact ⟨⟨Nat.zero_le _, hbits⟩, hcs, rfl, rfl, rfl, rfl, rfl, rfl⟩

/-- The pulse counter does not wrap while it is below the word's width. -/
theorem bitCnt_add_one_toNat {n : BitVec 6} (h : n.toNat < Config.txWidth) : (n + 1#6).toNat = n.toNat + 1 := by
  unfold Config.txWidth at h
  bv_omega

/-- The retry counter does not wrap while it is below the budget. -/
theorem retry_add_one_toNat {n : BitVec 7} (h : n.toNat < Config.retryBudget) : (n + 1#7).toNat = n.toNat + 1 := by
  unfold Config.retryBudget at h
  bv_omega

theorem phaseInvariant_phaseExit {s : State} (h : PhaseInvariant s) : PhaseInvariant (phaseExit s) := by
  have hkept := h
  unfold PhaseInvariant at h
  cases hp : s.ph <;> rw [hp] at h <;> simp only [phaseExit, hp]
  case idle => exact hkept
  case settle =>
    obtain ⟨hcount, -, hsk, hdout, hretry, hflags⟩ := h
    exact ⟨hcount, rfl, hsk, hdout, by simp [exitSettle_eq, hretry, Config.retryBudget], hflags⟩
  case pollSel | pollHi =>
    obtain ⟨hcount, hcs, -, hdout, hretry, hflags⟩ := h
    exact ⟨hcount, hcs, rfl, hdout, hretry, hflags⟩
  case pollSample =>
    obtain ⟨⟨hretry, hbits⟩, hcs, hsk, hdout, hlt, hflags⟩ := h
    by_cases hready : s.sample = Config.readyLevel
    · rw [exitPollSample_of_ready hready, sampled_eq]
      exact ⟨⟨hretry, Nat.zero_le _⟩, hcs, hsk, rfl, Nat.zero_lt_succ 31, hflags⟩
    · have hcounted : (s.retry + 1#7).toNat ≤ Config.retryBudget := retry_add_one_toNat hlt ▸ hlt
      rw [exitPollSample_of_busy hready, sampled_eq]
      exact ⟨⟨hcounted, hbits⟩, rfl, hsk, hdout, hflags⟩
  case pollBackoff =>
    obtain ⟨hcount, hcs, hsk, hdout, hflags⟩ := h
    by_cases hlt : s.retry.toNat < Config.retryBudget
    · rw [exitPollBackoff_of_lt hlt]
      exact ⟨hcount, rfl, hsk, hdout, hlt, hflags⟩
    · rw [exitPollBackoff_of_exhausted hlt]
      obtain ⟨-, -, hvalid⟩ := hflags
      exact ⟨hcount, hcs, hsk, fun _ => ⟨rfl, hvalid⟩, fun _ => rfl⟩
  case txSetup =>
    obtain ⟨hcount, hcs, -, hdout, hbits, hflags⟩ := h
    exact ⟨hcount, hcs, rfl, hdout, hbits, hflags⟩
  case txHi =>
    obtain ⟨⟨hretry, -⟩, hcs, -, -, hbits, hflags⟩ := h
    have hcounted : (s.bitCnt + 1#6).toNat ≤ Config.txWidth := bitCnt_add_one_toNat hbits ▸ hbits
    by_cases hmore : (s.bitCnt + 1#6).toNat < Config.txWidth
    · rw [exitTxHi_of_more hmore]
      exact ⟨⟨hretry, hcounted⟩, hcs, rfl, (bitAt_shiftLeft s.sr (i := 30) (j := 1) (by decide)).symm, hmore, hflags⟩
    by_cases hwr : s.wr = 1#1
    · rw [exitTxHi_of_read hmore hwr]
      exact ⟨⟨hretry, Nat.zero_le _⟩, hcs, rfl, rfl, Nat.zero_lt_succ 16, hwr, hflags⟩
    · rw [exitTxHi_of_done hmore hwr]
      exact ⟨⟨hretry, hcounted⟩, hcs, rfl, hflags⟩
  case rxSetup =>
    obtain ⟨hcount, hcs, -, hdout, hbits, hwr, hflags⟩ := h
    rw [exitRxSetup_eq, sampled_eq]
    exact ⟨hcount, hcs, rfl, hdout, hbits, hwr, hflags⟩
  case rxHi =>
    obtain ⟨⟨hretry, hbound⟩, hcs, -, hdout, hbits, hwr, hflags⟩ := h
    have hcounted : (s.bitCnt + 1#6).toNat ≤ Config.txWidth :=
      bitCnt_add_one_toNat (hbits.trans (by decide)) ▸ hbits.trans (by decide)
    by_cases hmore : (s.bitCnt + 1#6).toNat < Config.rxBits
    · rw [exitRxHi_of_more hmore]
      exact ⟨⟨hretry, hcounted⟩, hcs, rfl, hdout, hmore, hwr, hflags⟩
    · rw [exitRxHi_of_done hmore]
      exact ⟨⟨hretry, hcounted⟩, hcs, rfl, hflags⟩
  case csHold =>
    obtain ⟨hcount, -, hsk, hflags⟩ := h
    exact ⟨hcount, rfl, hsk, hflags⟩
  case csOff =>
    obtain ⟨hcount, hcs, hsk, -, htimeout, -⟩ := h
    rw [exitCsOff_eq]
    exact ⟨hcount, hcs, hsk, fun ht => absurd (htimeout.symm.trans ht) (by decide), fun _ => rfl⟩

theorem phaseInvariant_step {s t : State} (h : PhaseInvariant s) (hstep : step s = .next t) : PhaseInvariant t := by
  obtain ⟨-, rfl⟩ | ⟨-, hp, -, i, -, rfl⟩ | ⟨-, -, -, rfl⟩ | ⟨-, -, rfl⟩ := step_next_cases hstep
  · exact phaseInvariant_advanceHost (phaseInvariant_resetEdge s)
  · exact phaseInvariant_advanceHost (phaseInvariant_acceptedStart (encode i) hp h)
  · exact phaseInvariant_advanceHost h
  · exact phaseInvariant_advanceHost (phaseInvariant_phaseExit h)

/-- Settles O33: the invariant is the table, and every kind of step keeps the table (R39; log 6 for the bounds after a
reset edge). -/
theorem stepKeepsInvariant : Obligations.StepKeepsInvariant := fun s t h hstep =>
  (machineInvariant_iff t).mpr (phaseInvariant_step ((machineInvariant_iff s).mp h) hstep)

end Sys2Proof.Machine
end

section
/-! PROOFS. What a step may write: `RESULT` at the end of a read, `WR` at an accepted start, `SR` there and at a transmit pulse
(R23, R27, R31). -/

namespace Sys2Proof.Machine

section
variable (s : State)

@[simp] theorem exitPollSample_result : (exitPollSample s).result = s.result := by
  unfold exitPollSample
  split <;> exact sampled_result s

@[simp] theorem exitPollSample_wr : (exitPollSample s).wr = s.wr := by
  unfold exitPollSample
  split <;> exact sampled_wr s

@[simp] theorem exitPollSample_sr : (exitPollSample s).sr = s.sr := by
  unfold exitPollSample
  split <;> exact sampled_sr s

@[simp] theorem exitPollBackoff_result : (exitPollBackoff s).result = s.result := by
  unfold exitPollBackoff
  split <;> rfl

@[simp] theorem exitPollBackoff_wr : (exitPollBackoff s).wr = s.wr := by
  unfold exitPollBackoff
  split <;> rfl

@[simp] theorem exitPollBackoff_sr : (exitPollBackoff s).sr = s.sr := by
  unfold exitPollBackoff
  split <;> rfl

@[simp] theorem exitTxHi_result : (exitTxHi s).result = s.result := by
  unfold exitTxHi
  split <;> [rfl; (split <;> rfl)]

@[simp] theorem exitTxHi_wr : (exitTxHi s).wr = s.wr := by
  unfold exitTxHi
  split <;> [rfl; (split <;> rfl)]

@[simp] theorem exitTxHi_sr : (exitTxHi s).sr = s.sr <<< 1 := by
  unfold exitTxHi
  split <;> [rfl; (split <;> rfl)]

variable {s}

theorem phaseExit_result (hp : s.ph ≠ .csOff) : (phaseExit s).result = s.result := by
  cases hph : s.ph <;> simp only [phaseExit, hph]
  case csOff => exact absurd hph hp
  case pollSample => exact exitPollSample_result s
  case pollBackoff => exact exitPollBackoff_result s
  case txHi => exact exitTxHi_result s
  case rxSetup => exact sampled_result s
  case settle | pollSel | pollHi | txSetup | rxHi | csHold => rfl

theorem phaseExit_wr : (phaseExit s).wr = s.wr := by
  cases hph : s.ph <;> simp only [phaseExit, hph]
  case pollSample => exact exitPollSample_wr s
  case pollBackoff => exact exitPollBackoff_wr s
  case txHi => exact exitTxHi_wr s
  case rxSetup => exact sampled_wr s
  case settle | pollSel | pollHi | txSetup | rxHi | csHold | csOff => rfl

theorem phaseExit_sr (hp : s.ph ≠ .txHi) : (phaseExit s).sr = s.sr := by
  cases hph : s.ph <;> simp only [phaseExit, hph]
  case txHi => exact absurd hph hp
  case pollSample => exact exitPollSample_sr s
  case pollBackoff => exact exitPollBackoff_sr s
  case rxSetup => exact sampled_sr s
  case settle | pollSel | pollHi | txSetup | rxHi | csHold | csOff => rfl

theorem phaseExit_sr_of_txHi (hp : s.ph = .txHi) : (phaseExit s).sr = s.sr <<< 1 := by
  simp only [phaseExit, hp]
  exact exitTxHi_sr s

end

/-- Settles O35: no rule but that of `CS_OFF` writes `RESULT`, and that one only when a read was wanted. -/
theorem resultWrittenOnlyAtSuccessfulRead : Obligations.ResultWrittenOnlyAtSuccessfulRead := by
  intro s t hrst hstep hchanged
  obtain ⟨h, -⟩ | ⟨-, -, -, i, -, rfl⟩ | ⟨-, -, -, rfl⟩ | ⟨-, -, rfl⟩ := step_next_cases hstep
  · exact absurd h (bit_ne_one_iff.mpr hrst)
  · exact absurd (advanceHost_result _) hchanged
  · exact absurd (advanceHost_result _) hchanged
  · rw [advanceHost_result] at hchanged
    have hp : s.ph = .csOff := by_contra fun hp => hchanged (phaseExit_result hp)
    by_cases hwr : s.wr = 1#1
    · simp [phaseExit, hp, exitCsOff_eq, hwr]
    · simp [phaseExit, hp, exitCsOff_eq, hwr] at hchanged

/-- Settles O36: no phase's rule writes `WR`, and none but that of `TX_HI` writes `SR`. -/
theorem latchedAtTheAcceptedStartOnly : Obligations.LatchedAtTheAcceptedStartOnly := by
  intro s t hrst hstep
  obtain ⟨h, -⟩ | ⟨-, hp, hs, i, -, rfl⟩ | ⟨-, -, -, rfl⟩ | ⟨-, -, rfl⟩ := step_next_cases hstep
  · exact absurd h (bit_ne_one_iff.mpr hrst)
  · exact ⟨fun _ => ⟨hp, hs, advanceHost_wr _⟩, fun _ => .inl ⟨hp, hs⟩⟩
  · exact ⟨fun h => absurd (advanceHost_wr s) h, fun h => absurd (advanceHost_sr s) h⟩
  · rw [advanceHost_wr, advanceHost_sr]
    refine ⟨fun h => absurd phaseExit_wr h, fun h => .inr ?_⟩
    have hp : s.ph = .txHi := by_contra fun hp => h (phaseExit_sr hp)
    exact ⟨hp, phaseExit_sr_of_txHi hp⟩

end Sys2Proof.Machine
end

section
/-! PROOFS. What a phase exit does not look at: the device's answers outside the sampling steps (R29), and in every phase the
host's signals and the dwell count (R33, R102, R114). -/

namespace Sys2Proof.Machine

/-- The state with other signals of the host and another dwell count. -/
def State.withHost (s : State) (p : HostPort) (ps : List HostPort) (n : Nat) : State :=
  { s with port := p, upcoming := ps, waitCnt := n }

/-- The state with other surroundings: the host's signals, the dwell count and the device's answers to come. -/
def State.withSurroundings (s : State) (p : HostPort) (ps : List HostPort) (n : Nat) (as : List Bit) (d : Nat) : State :=
  { s.withHost p ps n with answers := as, draws := d }

section
variable {s : State} (p : HostPort) (ps : List HostPort) (n : Nat)

/-! ## Outside the sampling steps -/

theorem exitPollBackoff_withSurroundings (as : List Bit) (d : Nat) :
    exitPollBackoff (s.withSurroundings p ps n as d) = (exitPollBackoff s).withSurroundings p ps n as d := by
  by_cases h : s.retry.toNat < Config.retryBudget
  · rw [exitPollBackoff_of_lt h, exitPollBackoff_of_lt (s := s.withSurroundings p ps n as d) h]
    rfl
  · rw [exitPollBackoff_of_exhausted h, exitPollBackoff_of_exhausted (s := s.withSurroundings p ps n as d) h]
    rfl

theorem exitTxHi_withSurroundings (as : List Bit) (d : Nat) :
    exitTxHi (s.withSurroundings p ps n as d) = (exitTxHi s).withSurroundings p ps n as d := by
  by_cases h : (s.bitCnt + 1#6).toNat < Config.txWidth
  · rw [exitTxHi_of_more h, exitTxHi_of_more (s := s.withSurroundings p ps n as d) h]
    rfl
  by_cases hw : s.wr = 1#1
  · rw [exitTxHi_of_read h hw, exitTxHi_of_read (s := s.withSurroundings p ps n as d) h hw]
    rfl
  · rw [exitTxHi_of_done h hw, exitTxHi_of_done (s := s.withSurroundings p ps n as d) h hw]
    rfl

/-- Outside the sampling steps a phase exit neither reads nor writes its surroundings. -/
theorem phaseExit_withSurroundings (as : List Bit) (d : Nat) (hsample : s.ph ≠ .pollSample) (hrx : s.ph ≠ .rxSetup) :
    phaseExit (s.withSurroundings p ps n as d) = (phaseExit s).withSurroundings p ps n as d := by
  have hph' : (s.withSurroundings p ps n as d).ph = s.ph := rfl
  cases hph : s.ph <;> simp only [phaseExit, hph', hph]
  case pollSample => exact absurd hph hsample
  case rxSetup => exact absurd hph hrx
  case pollBackoff => exact exitPollBackoff_withSurroundings p ps n as d
  case txHi => exact exitTxHi_withSurroundings p ps n as d
  case settle | pollSel | pollHi | txSetup | rxHi | csHold | csOff => rfl

/-- Outside the sampling steps a phase exit leaves its surroundings. -/
theorem phaseExit_eq_withSurroundings (hsample : s.ph ≠ .pollSample) (hrx : s.ph ≠ .rxSetup) :
    phaseExit s = (phaseExit s).withSurroundings s.port s.upcoming s.waitCnt s.answers s.draws :=
  phaseExit_withSurroundings s.port s.upcoming s.waitCnt s.answers s.draws hsample hrx

/-! ## In every phase -/

theorem sampled_withHost : (s.withHost p ps n).sampled = s.sampled.withHost p ps n := by
  rcases h : s.answers with _ | ⟨a, as⟩ <;> simp [State.sampled, State.withHost, h]

theorem exitPollSample_withHost : exitPollSample (s.withHost p ps n) = (exitPollSample s).withHost p ps n := by
  by_cases h : s.sample = Config.readyLevel
  · rw [exitPollSample_of_ready h, exitPollSample_of_ready (s := s.withHost p ps n) h, sampled_withHost]
    rfl
  · rw [exitPollSample_of_busy h, exitPollSample_of_busy (s := s.withHost p ps n) h, sampled_withHost]
    rfl

theorem exitRxSetup_withHost : exitRxSetup (s.withHost p ps n) = (exitRxSetup s).withHost p ps n := by
  rw [exitRxSetup_eq, exitRxSetup_eq, sampled_withHost]
  rfl

/-- A phase exit neither reads nor writes the host's signals and the dwell count (R102, R114). -/
theorem phaseExit_withHost : phaseExit (s.withHost p ps n) = (phaseExit s).withHost p ps n := by
  have hph' : (s.withHost p ps n).ph = s.ph := rfl
  by_cases hsample : s.ph = .pollSample
  · simpa only [phaseExit, hph', hsample] using exitPollSample_withHost p ps n
  by_cases hrx : s.ph = .rxSetup
  · simpa only [phaseExit, hph', hrx] using exitRxSetup_withHost p ps n
  · calc phaseExit (s.withHost p ps n)
        = (phaseExit s).withSurroundings p ps n s.answers s.draws :=
          phaseExit_withSurroundings p ps n s.answers s.draws hsample hrx
      _ = ((phaseExit s).withSurroundings s.port s.upcoming s.waitCnt s.answers s.draws).withHost p ps n := rfl
      _ = (phaseExit s).withHost p ps n := by rw [← phaseExit_eq_withSurroundings hsample hrx]

end

/-! ## The host's signals moving on -/

theorem advanceHost_withAnswers (s : State) (as : List Bit) :
    advanceHost { s with answers := as } = { advanceHost s with answers := as } := by
  rcases h : s.upcoming with _ | ⟨p, ps⟩ <;> simp [advanceHost, h]

/-- An edge moves the host's signals to some others. -/
theorem advanceHost_eq_withHost (s : State) : ∃ p ps, advanceHost s = s.withHost p ps s.waitCnt := by
  rcases h : s.upcoming with _ | ⟨p, ps⟩
  · have hstays : advanceHost s = s := by simp [advanceHost, h]
    exact ⟨s.port, s.upcoming, hstays⟩
  · exact ⟨p, ps, by simp [advanceHost, State.withHost, h]⟩

theorem NoReset.advanceHost {s : State} (h : NoReset s) : NoReset (advanceHost s) := by
  obtain ⟨hport, hupcoming⟩ := h
  rcases hu : s.upcoming with _ | ⟨p, ps⟩
  · simpa [NoReset, Machine.advanceHost, hu] using hport
  · simpa [NoReset, Machine.advanceHost, hu] using hupcoming

/-! ## Sampling is where `DIN` matters -/

/-- Settles O37: each kind of edge but a sampling step commutes with a change of the answers and takes none (R29). -/
theorem dinIgnoredOutsideSampling : Obligations.DinIgnoredOutsideSampling := by
  intro s t as hrst hsample hrx hstep
  have hr : s.port.rst ≠ 1#1 := bit_ne_one_iff.mpr hrst
  obtain ⟨h, -⟩ | ⟨-, hp, hs, i, hd, rfl⟩ | ⟨-, hp, hs, rfl⟩ | ⟨-, hp, rfl⟩ := step_next_cases hstep
  · exact absurd h hr
  · have haccepts : Accepts { s with answers := as } i := ⟨hp, hrst, hs, hd⟩
    rw [step_of_accepts haccepts, ← advanceHost_withAnswers]
    exact ⟨rfl, advanceHost_answers _, advanceHost_draws _⟩
  · rw [step_of_quiet (s := { s with answers := as }) hr hs hp, ← advanceHost_withAnswers]
    exact ⟨rfl, advanceHost_answers _, advanceHost_draws _⟩
  · have hkept := phaseExit_eq_withSurroundings hsample hrx
    have hother : phaseExit { s with answers := as } = { phaseExit s with answers := as } := by
      rw [hkept]
      exact phaseExit_withSurroundings s.port s.upcoming s.waitCnt as s.draws hsample hrx
    rw [step_of_busy (s := { s with answers := as }) hr hp, hother, ← advanceHost_withAnswers, advanceHost_answers,
      advanceHost_draws]
    exact ⟨rfl, congrArg (·.answers) hkept, congrArg (·.draws) hkept⟩

end Sys2Proof.Machine
end

section
/-! PROOFS. The clocked block serves the dwell of each phase (R33, R101). -/

namespace Sys2Proof.Machine

/-- No rule stays in its phase (R100). -/
theorem phaseExit_ph_ne {s : State} (hp : s.ph ≠ .idle) : (phaseExit s).ph ≠ s.ph := by
  cases hph : s.ph <;> simp only [phaseExit, hph]
  case idle => exact absurd hph hp
  case pollSample => unfold exitPollSample; split <;> exact Phase.noConfusion
  case pollBackoff => unfold exitPollBackoff; split <;> exact Phase.noConfusion
  case txHi => unfold exitTxHi; split <;> [exact Phase.noConfusion; (split <;> exact Phase.noConfusion)]
  case rxHi => simp only [exitRxHi, emit_ph]; split <;> exact Phase.noConfusion
  case settle | pollSel | pollHi | txSetup | rxSetup | csHold | csOff => exact Phase.noConfusion

theorem runClocks_succ_right {k : Nat} {s u : State} (h : runClocks k s = .next u) : runClocks (k + 1) s = clock u := by
  induction k generalizing s with
  | zero =>
    obtain rfl : s = u := Host.Outcome.next.inj h
    simp only [runClocks]
    cases clock s <;> rfl
  | succ k ih =>
    rw [runClocks] at h ⊢
    cases hc : clock s with
    | next t => rw [hc] at h; exact ih h
    | fault r => simp [hc] at h
    | refused r => simp [hc] at h

theorem clock_of_waiting {s : State} (hr : NoReset s) (hp : s.ph ≠ .idle) (hw : 1 < s.waitCnt) :
    clock s = .next (waitOneClock s) := by
  rw [clock, if_neg hr.rst_ne_one, if_pos ⟨hp, hw⟩]

/-- While the dwell lasts the clocked block changes nothing but its count, and the host moves on. -/
theorem runClocks_of_waiting {s : State} (hr : NoReset s) (hp : s.ph ≠ .idle) {k : Nat} (hk : k < max 1 s.waitCnt) :
    ∃ p ps, runClocks k s = .next (s.withHost p ps (s.waitCnt - k)) ∧ NoReset (s.withHost p ps (s.waitCnt - k)) := by
  induction k with
  | zero => exact ⟨s.port, s.upcoming, rfl, hr⟩
  | succ k ih =>
    obtain ⟨p, ps, hrun, hquiet⟩ := ih (Nat.lt_of_succ_lt hk)
    have hmore : 1 < (s.withHost p ps (s.waitCnt - k)).waitCnt := by change 1 < s.waitCnt - k; omega
    rw [runClocks_succ_right hrun, clock_of_waiting hquiet hp hmore]
    have hquiet' : NoReset (waitOneClock (s.withHost p ps (s.waitCnt - k))) :=
      NoReset.advanceHost (s := s.withHost p ps (s.waitCnt - k - 1)) hquiet
    obtain ⟨p', ps', hmoves⟩ := advanceHost_eq_withHost (s.withHost p ps (s.waitCnt - k - 1))
    exact ⟨p', ps', congrArg _ hmoves, hmoves ▸ hquiet'⟩

/-- The clock at which the dwell is over. -/
theorem clock_of_over {s : State} (hr : NoReset s) (hp : s.ph ≠ .idle) (hw : s.waitCnt ≤ 1) :
    clock s = .next { advanceHost (phaseExit s) with waitCnt := phaseClocks Config.fClkHz (phaseExit s).ph } := by
  have hleaves : (advanceHost (phaseExit s)).ph ≠ s.ph := advanceHost_ph (phaseExit s) ▸ phaseExit_ph_ne hp
  rw [clock, if_neg hr.rst_ne_one, if_neg (fun h => absurd h.2 (Nat.not_lt.mpr hw)), timedExit,
    step_of_busy hr.rst_ne_one hp]
  simp only [loadWait]
  rw [if_neg hleaves, advanceHost_ph]

/-- Settles O49: the clocks of the dwell, then the exit, which the host's moves meanwhile do not touch (R33; D13, log 12). -/
theorem dwellIsServed : Obligations.DwellIsServed := by
  intro s hr hp
  refine ⟨fun k hk => ?_, ?_⟩
  · obtain ⟨p, ps, hrun, -⟩ := runClocks_of_waiting hr hp hk
    exact ⟨_, hrun, rfl, rfl, rfl, rfl⟩
  · obtain ⟨k, hk⟩ : ∃ k, max 1 s.waitCnt = k + 1 := Nat.exists_eq_succ_of_ne_zero (by omega)
    obtain ⟨p, ps, hrun, hquiet⟩ := runClocks_of_waiting hr hp (k := k) (by omega)
    have hover : (s.withHost p ps (s.waitCnt - k)).waitCnt ≤ 1 := by change s.waitCnt - k ≤ 1; omega
    rw [hk, runClocks_succ_right hrun, clock_of_over hquiet hp hover, step_of_busy hr.rst_ne_one hp, phaseExit_withHost]
    obtain ⟨p', ps', hmoves⟩ := advanceHost_eq_withHost ((phaseExit s).withHost p ps (s.waitCnt - k))
    obtain ⟨p'', ps'', hmoves'⟩ := advanceHost_eq_withHost (phaseExit s)
    rw [hmoves, hmoves']
    exact ⟨_, _, rfl, rfl, rfl, rfl⟩

end Sys2Proof.Machine
end

section
/-! PROOFS. Runs: the steps between an accepted start and the end of the transaction are the phase exits, whatever the host does
short of reset. -/

namespace Sys2Proof.Machine

/-- `k` phase exits in a row, each from a busy phase. -/
inductive BusyRun : Nat → State → State → Prop where
  | refl (s : State) : BusyRun 0 s s
  | step {k : Nat} {s t u : State} (hp : s.ph ≠ .idle) (hexit : phaseExit s = t) (h : BusyRun k t u) : BusyRun (k + 1) s u

theorem BusyRun.of_eq {s t : State} (h : s = t) : BusyRun 0 s t := h ▸ .refl s

theorem BusyRun.trans {m n : Nat} {s t u : State} (h : BusyRun m s t) (h' : BusyRun n t u) : BusyRun (m + n) s u := by
  induction h with
  | refl s => rwa [Nat.zero_add]
  | step hp hexit _ ih =>
    rw [Nat.add_right_comm]
    exact .step hp hexit (ih h')

theorem runSteps_succ_of_step {s t : State} (h : Machine.step s = .next t) (k : Nat) : runSteps (k + 1) s = runSteps k t := by
  have hcore : Sys2Proof.core.step s = .next t := h
  simp only [runSteps, Host.Core.run, hcore]
  rfl

/-- The machine's steps run through a busy run while the host moves on. -/
theorem BusyRun.runSteps {k : Nat} {s t : State} (h : BusyRun k s t) {p : HostPort} {ps : List HostPort} {n : Nat}
    (hr : NoReset (s.withHost p ps n)) : ∃ p' ps', runSteps k (s.withHost p ps n) = .next (t.withHost p' ps' n) := by
  induction h generalizing p ps with
  | refl s => exact ⟨p, ps, rfl⟩
  | @step k s t u hp hexit _ ih =>
    obtain ⟨p', ps', hmoves⟩ := advanceHost_eq_withHost (t.withHost p ps n)
    have hquiet : NoReset (advanceHost (t.withHost p ps n)) := NoReset.advanceHost (s := t.withHost p ps n) hr
    have hstep : Machine.step (s.withHost p ps n) = .next (t.withHost p' ps' n) := by
      rw [step_of_busy hr.rst_ne_one hp, phaseExit_withHost, hexit]
      exact congrArg _ hmoves
    rw [runSteps_succ_of_step hstep]
    exact ih (p := p') (ps := ps') (hmoves ▸ hquiet)

/-- The accepted start, then a busy run. -/
theorem runSteps_of_accepts {s t : State} {i : Instr} {k : Nat} (ha : Accepts s i) (hr : NoReset s)
    (hrun : BusyRun k (acceptedStart (encode i) s) t) : ∃ p ps, runSteps (1 + k) s = .next (t.withHost p ps s.waitCnt) := by
  obtain ⟨p, ps, hmoves⟩ := advanceHost_eq_withHost (acceptedStart (encode i) s)
  have hquiet : NoReset (advanceHost (acceptedStart (encode i) s)) :=
    NoReset.advanceHost (s := acceptedStart (encode i) s) hr
  rw [Nat.add_comm, runSteps_succ_of_step (step_of_accepts ha), hmoves]
  exact hrun.runSteps (hmoves ▸ hquiet)

end Sys2Proof.Machine
end

section
/-! PROOFS. A successful transaction, segment by segment, as equations of whole states: the ready poll, the word sent, the
bits read, the deselect (R104 to R117). -/

namespace Sys2Proof.Machine

/-! ## The answers used up -/

/-- The state once `k` of the device's answers have been taken. -/
def State.afterSamples (s : State) (k : Nat) : State :=
  { s with answers := s.answers.drop k, draws := s.draws + (k - s.answers.length) }

theorem afterSamples_zero (s : State) : s.afterSamples 0 = s := by simp [State.afterSamples]

theorem afterSamples_answer (s : State) (j k : Nat) : (s.afterSamples j).answer k = s.answer (j + k) := by
  unfold State.answer
  rw [State.afterSamples, List.getElem?_drop]
  rcases h : s.answers[j + k]? with _ | a
  · have hlen : s.answers.length ≤ j + k := List.getElem?_eq_none_iff.mp h
    simp only [List.length_drop]
    congr 1
    omega
  · rfl

theorem afterSamples_sample (s : State) (k : Nat) : (s.afterSamples k).sample = s.answer k := by
  rw [sample_eq_answer, afterSamples_answer, Nat.add_zero]

theorem afterSamples_sampled (s : State) (k : Nat) : (s.afterSamples k).sampled = s.afterSamples (k + 1) := by
  have htail : s.answers.drop (k + 1) = (s.answers.drop k).tail := List.tail_drop.symm
  have hlength : (s.answers.drop k).length = s.answers.length - k := List.length_drop
  unfold State.sampled State.afterSamples
  rcases h : s.answers.drop k with _ | ⟨a, as⟩
  · have hused : s.draws + (k - s.answers.length) + 1 = s.draws + (k + 1 - s.answers.length) := by
      rw [h, List.length_nil] at hlength
      omega
    simp only [htail, h, List.tail_nil, hused]
  · have hleft : s.draws + (k - s.answers.length) = s.draws + (k + 1 - s.answers.length) := by
      rw [h, List.length_cons] at hlength
      omega
    simp only [htail, h, List.tail_cons, hleft]

/-! ## The ready poll -/

/-- The trace at the start of poll iteration `b`, all iterations before it busy; `s` is the state in `SETTLE`. -/
def pollTrace (s : State) (b : Nat) : List PinEvent := s.trace ++ [.dwell .tSettle] ++ busyTrace s.answer b

/-- The start of poll iteration `b`. -/
def polling (s : State) (b : Nat) : State :=
  State.afterSamples
    { s with cs := 1#1, sk := 0#1, retry := BitVec.ofNat 7 b, ph := .pollSel, trace := pollTrace s b ++ [.cs 1#1] } b

/-- Poll iteration `b` at its sample, but for the answers taken. -/
def pollPulsed (s : State) (b : Nat) : State :=
  { s with
    cs := 1#1, sk := 0#1, retry := BitVec.ofNat 7 b, ph := .pollSample,
    trace := pollTrace s b ++ [.cs 1#1] ++ [.dwell .tCss, .sk 1#1] ++ [.dwell .tSkh, .sk 0#1] }

theorem busyTrace_succ (answers : Nat → Bit) (b : Nat) :
    busyTrace answers (b + 1) = busyTrace answers b ++ busyEvents (answers b) := by
  simp [busyTrace, List.range_succ]

/-- R104: the first select starts iteration 0. -/
theorem settle_run {s : State} (hp : s.ph = .settle) (hsk : s.sk = 0#1) (hretry : s.retry = 0#7) :
    BusyRun 1 s (polling s 0) := by
  refine .step (by simp [hp]) ?_ (.refl _)
  simp [phaseExit, hp, exitSettle_eq, polling, pollTrace, afterSamples_zero, busyTrace, hsk, hretry]

/-- R105, R106: one poll pulse. -/
theorem polling_run (s : State) (b : Nat) : BusyRun 2 (polling s b) ((pollPulsed s b).afterSamples b) :=
  .step Phase.noConfusion rfl (.step Phase.noConfusion rfl (.refl _))

/-- R108, R109: a busy sample below the budget leads to the next iteration. -/
theorem pollPulsed_run_of_busy {s : State} {b : Nat} (hb : b + 1 < Config.retryBudget)
    (hbusy : s.answer b ≠ Config.readyLevel) : BusyRun 2 ((pollPulsed s b).afterSamples b) (polling s (b + 1)) := by
  have hsample : ((pollPulsed s b).afterSamples b).sample = s.answer b := afterSamples_sample ..
  have hdeselect : phaseExit ((pollPulsed s b).afterSamples b) =
      pollBusy (s.answer b) ((pollPulsed s b).afterSamples (b + 1)) := by
    rw [← afterSamples_sampled, ← hsample]
    exact exitPollSample_of_busy (hsample ▸ hbusy)
  have hcount : BitVec.ofNat 7 b + 1#7 = BitVec.ofNat 7 (b + 1) := (BitVec.ofNat_add b 1).symm
  have hlt : (BitVec.ofNat 7 b + 1#7).toNat < Config.retryBudget := hcount ▸ (Nat.mod_le ..).trans_lt hb
  refine .step Phase.noConfusion hdeselect (.step Phase.noConfusion ((exitPollBackoff_of_lt hlt).trans ?_) (.refl _))
  simp [pollBusy, polling, pollPulsed, State.afterSamples, emit, pollTrace, busyTrace_succ, busyEvents, pollEvents, hcount]

theorem polling_run_of_all_busy {s : State} {b : Nat} (hb : b < Config.retryBudget)
    (hbusy : ∀ k < b, s.answer k ≠ Config.readyLevel) : BusyRun (4 * b) (polling s 0) (polling s b) := by
  induction b with
  | zero => exact .refl _
  | succ b ih =>
    have hbefore := ih (Nat.lt_of_succ_lt hb) fun k hk => hbusy k (Nat.lt_succ_of_lt hk)
    exact hbefore.trans ((polling_run s b).trans (pollPulsed_run_of_busy hb (hbusy b b.lt_succ_self)))

/-- The ready sample of iteration `b`, its bits still to be sent. -/
def pollSampled (s : State) (b : Nat) : State :=
  State.afterSamples { pollPulsed s b with trace := pollTrace s b ++ pollEvents (s.answer b) } (b + 1)

/-! ## The word sent -/

/-- Bit `31 - j` of the word on `DOUT`, the bits before it sent; `s` is the state at the ready sample. -/
def sending (s : State) (j : Nat) : State :=
  { s with
    sr := s.sr <<< j, bitCnt := BitVec.ofNat 6 j, dout := bitAt s.sr (31 - j), sk := 0#1, ph := .txSetup,
    trace := s.trace ++ (List.range j).flatMap (fun i => sendEvents (bitAt s.sr (31 - i))) ++ [.dout (bitAt s.sr (31 - j))] }

/-- The word sent and nothing to be read. -/
def sent (s : State) : State :=
  { s with sr := 0#32, bitCnt := 32#6, dout := bitAt s.sr 0, sk := 0#1, ph := .csHold, trace := s.trace ++ sendTrace s.sr }

/-- R107: a ready sample places the word's first bit. -/
theorem pollPulsed_run_of_ready {s : State} {b : Nat} (hready : s.answer b = Config.readyLevel) :
    BusyRun 1 ((pollPulsed s b).afterSamples b) (sending (pollSampled s b) 0) := by
  have hsample : ((pollPulsed s b).afterSamples b).sample = s.answer b := afterSamples_sample ..
  have hselected : phaseExit ((pollPulsed s b).afterSamples b) =
      pollReady (s.answer b) ((pollPulsed s b).afterSamples (b + 1)) := by
    rw [← afterSamples_sampled, ← hsample]
    exact exitPollSample_of_ready (hsample ▸ hready)
  refine .step Phase.noConfusion (hselected.trans ?_) (.refl _)
  simp [pollReady, sending, pollSampled, pollPulsed, State.afterSamples, emit, pollEvents]

/-- R110, R111: one transmit pulse, with bits left. -/
theorem sending_run {s : State} {j : Nat} (hj : j < 31) : BusyRun 2 (sending s j) (sending s (j + 1)) := by
  have hcount : BitVec.ofNat 6 j + 1#6 = BitVec.ofNat 6 (j + 1) := (BitVec.ofNat_add j 1).symm
  have hmore : (BitVec.ofNat 6 j + 1#6).toNat < Config.txWidth :=
    hcount ▸ (Nat.mod_le ..).trans_lt (Nat.succ_lt_succ hj)
  have hbit : bitAt (s.sr <<< j) 30 = bitAt s.sr (31 - (j + 1)) := by
    have h := bitAt_shiftLeft s.sr (i := 31 - (j + 1)) (j := j) (by omega)
    rwa [show 31 - (j + 1) + j = 30 by omega] at h
  refine .step Phase.noConfusion rfl (.step Phase.noConfusion ((exitTxHi_of_more hmore).trans ?_) (.refl _))
  simp [sending, exitTxSetup_eq, phaseExit, hcount, BitVec.shiftLeft_add, hbit, List.range_succ, sendEvents]

theorem sending_run_of_le (s : State) {j : Nat} (hj : j ≤ 31) : BusyRun (2 * j) (sending s 0) (sending s j) := by
  induction j with
  | zero => exact .refl _
  | succ j ih => exact (ih (Nat.le_of_succ_le hj)).trans (sending_run hj)

theorem sendTrace_eq (w : TxWord) :
    sendTrace w = (List.range 31).flatMap (fun i => sendEvents (bitAt w (31 - i))) ++ sendEvents (bitAt w 0) := by
  rw [sendTrace, wireBits, List.flatMap_map, Config.txWidth, List.range_succ, List.flatMap_append, List.flatMap_singleton]

/-- The last of the word's 32 shifts empties `SR`. -/
theorem shiftLeft_shiftLeft_eq_zero (w : TxWord) : w <<< 31 <<< 1 = 0#32 := by
  rw [← BitVec.shiftLeft_add, BitVec.shiftLeft_eq_zero (Nat.le_refl 32)]

/-- R111: the last transmit pulse when no read is wanted. -/
theorem sending_last_run_of_done {s : State} (hwr : s.wr ≠ 1#1) : BusyRun 2 (sending s 31) (sent s) := by
  have hlast : ¬ (31#6 + 1#6).toNat < Config.txWidth := by decide
  have hfall := exitTxHi_of_done (s := phaseExit (sending s 31)) hlast hwr
  refine .step Phase.noConfusion rfl (.step Phase.noConfusion (hfall.trans ?_) (.refl _))
  simp [sending, exitTxSetup_eq, phaseExit, sent, shiftLeft_shiftLeft_eq_zero, sendTrace_eq, sendEvents]

/-! ## The bits read -/

/-- `j` bits read, of which the first is the dummy; `s` is the state with the word sent. -/
def reading (s : State) (j : Nat) : State :=
  State.afterSamples
    { s with
      rx := ((List.range j).map s.answer).foldl shiftIn 0#16
      bitCnt := BitVec.ofNat 6 j
      dout := 0#1
      sk := 0#1
      ph := if j < Config.rxBits then .rxSetup else .csHold
      trace := s.trace ++ .dout 0#1 :: (List.range j).flatMap fun i => receiveEvents (s.answer i) }
    j

/-- R111: the last transmit pulse leads to the read phase when a read is wanted. -/
theorem sending_last_run_of_read {s : State} (hwr : s.wr = 1#1) : BusyRun 2 (sending s 31) (reading (sent s) 0) := by
  have hlast : ¬ (31#6 + 1#6).toNat < Config.txWidth := by decide
  have hfall := exitTxHi_of_read (s := phaseExit (sending s 31)) hlast hwr
  refine .step Phase.noConfusion rfl (.step Phase.noConfusion (hfall.trans ?_) (.refl _))
  simp [sending, exitTxSetup_eq, phaseExit, reading, sent, shiftLeft_shiftLeft_eq_zero, sendTrace_eq, sendEvents,
    afterSamples_zero, Config.rxBits]

/-- R112, R113: one read pulse. -/
theorem reading_run (s : State) {j : Nat} (hj : j < Config.rxBits) : BusyRun 2 (reading s j) (reading s (j + 1)) := by
  have hp : (reading s j).ph = .rxSetup := if_pos hj
  have hsample : (reading s j).sample = s.answer j := afterSamples_sample ..
  have hcount : BitVec.ofNat 6 j + 1#6 = BitVec.ofNat 6 (j + 1) := (BitVec.ofNat_add j 1).symm
  have htoNat : (BitVec.ofNat 6 (j + 1)).toNat = j + 1 :=
    Nat.mod_eq_of_lt ((Nat.succ_le_of_lt hj).trans_lt (by decide : Config.rxBits < 2 ^ 6))
  have hrise : phaseExit (reading s j) = exitRxSetup (reading s j) := by simp [phaseExit, hp]
  refine .step (by simp [hp]) hrise (.step Phase.noConfusion rfl (.of_eq ?_))
  change exitRxHi (exitRxSetup (reading s j)) = _
  rw [exitRxSetup_eq, hsample, reading, afterSamples_sampled]
  simp [exitRxHi, reading, State.afterSamples, emit, hcount, htoNat, List.range_succ, receiveEvents]

theorem reading_run_of_le (s : State) {j : Nat} (hj : j ≤ Config.rxBits) : BusyRun (2 * j) (reading s 0) (reading s j) := by
  induction j with
  | zero => exact .refl _
  | succ j ih => exact (ih (Nat.le_of_succ_le hj)).trans (reading_run s hj)

/-! ## The transaction -/

/-- The end of a successful transaction; `s` is the state in `CS_HOLD`. -/
def finished (s : State) : State :=
  { completeFlags s with cs := 0#1, ph := .idle, trace := s.trace ++ [.dwell .tCsh, .cs 0#1] ++ [.dwell .tCsl] }

/-- R115, R116: the device is deselected and the success reported. -/
theorem csHold_run {s : State} (hp : s.ph = .csHold) : BusyRun 2 s (finished s) :=
  .step (by simp [hp]) (show phaseExit s = exitCsHold s by simp [phaseExit, hp]) (.step Phase.noConfusion rfl (.refl _))

/-- A ready answer after `b` busy ones, within the budget (R117). -/
theorem busyBefore_eq_some {answers : Nat → Bit} {b : Nat} (h : busyBefore answers = some b) :
    b < Config.retryBudget ∧ answers b = Config.readyLevel ∧ ∀ k < b, answers k ≠ Config.readyLevel := by
  obtain ⟨hready, hmem, hbusy⟩ := List.find?_range_eq_some.mp h
  exact ⟨List.mem_range.mp hmem, by simpa using hready, fun k hk => by simpa using hbusy k hk⟩

section
variable {s : State} {b : Nat} (hp : s.ph = .settle) (hsk : s.sk = 0#1) (hretry : s.retry = 0#7)
  (hb : busyBefore s.answer = some b)
include hp hsk hretry hb

/-- From `SETTLE` to the first bit placed: `b` busy iterations and a ready one. -/
theorem poll_run : BusyRun (4 + 4 * b) s (sending (pollSampled s b) 0) := by
  obtain ⟨hlt, hready, hbusy⟩ := busyBefore_eq_some hb
  have hpolls := (settle_run hp hsk hretry).trans (polling_run_of_all_busy hlt hbusy)
  have hplace := (polling_run s b).trans (pollPulsed_run_of_ready hready)
  rw [show 4 + 4 * b = 1 + 4 * b + (2 + 1) by omega]
  exact hpolls.trans hplace

theorem transaction_run_without_read (hwr : s.wr ≠ 1#1) :
    BusyRun (70 + 4 * b) s (finished (sent (pollSampled s b))) := by
  have hsend := (sending_run_of_le (pollSampled s b) (Nat.le_refl 31)).trans (sending_last_run_of_done hwr)
  rw [show 70 + 4 * b = 4 + 4 * b + (2 * 31 + 2) + 2 by omega]
  exact ((poll_run hp hsk hretry hb).trans hsend).trans (csHold_run rfl)

theorem transaction_run_with_read (hwr : s.wr = 1#1) :
    BusyRun (104 + 4 * b) s (finished (reading (sent (pollSampled s b)) Config.rxBits)) := by
  have hsend := (sending_run_of_le (pollSampled s b) (Nat.le_refl 31)).trans (sending_last_run_of_read hwr)
  have hread := reading_run_of_le (sent (pollSampled s b)) (Nat.le_refl Config.rxBits)
  rw [show 104 + 4 * b = 4 + 4 * b + (2 * 31 + 2) + 2 * Config.rxBits + 2 by unfold Config.rxBits; omega]
  exact (((poll_run hp hsk hretry hb).trans hsend).trans hread).trans (csHold_run rfl)

end

/-- The bits read are the answers after those of the poll. -/
theorem sent_pollSampled_answer (s : State) (b k : Nat) : (sent (pollSampled s b)).answer k = s.answer (b + 1 + k) :=
  afterSamples_answer s (b + 1) k

/-- Settles O43: the registers of the two end states of a successful transaction. -/
theorem registersAfterSuccess : Obligations.RegistersAfterSuccess := by
  intro s i b ha hr hb
  by_cases hwr : s.port.wantsRead = 1#1
  · have hsteps : (transactionFrom (encode i) s).steps = 104 + 4 * b := by simp [transactionFrom, transact, hb, hwr]
    obtain ⟨p, ps, hrun⟩ := runSteps_of_accepts ha hr
      (transaction_run_with_read (s := acceptedStart (encode i) s) rfl rfl rfl hb hwr)
    rw [hsteps]
    refine ⟨_, hrun, rfl, rfl, fun h => absurd hwr (bit_ne_one_iff.mpr h), fun _ => ⟨rfl, rfl, ?_⟩⟩
    exact (foldl_shiftIn_seventeen 0#16 _).trans (congrArg readValue (funext (sent_pollSampled_answer _ b)))
  · have hsteps : (transactionFrom (encode i) s).steps = 70 + 4 * b := by simp [transactionFrom, transact, hb, hwr]
    obtain ⟨p, ps, hrun⟩ := runSteps_of_accepts ha hr
      (transaction_run_without_read (s := acceptedStart (encode i) s) rfl rfl rfl hb hwr)
    rw [hsteps]
    exact ⟨_, hrun, rfl, rfl, fun _ => ⟨rfl, rfl, rfl⟩, fun h => absurd h hwr⟩

end Sys2Proof.Machine
end

section
/-! PROOFS. The wire carries the word, and the word decodes to the command it encodes (R57, R79, R83, R85). -/

namespace Sys2Proof

/-! ## Reading the wire back -/

@[simp] theorem length_wireBits (w : TxWord) : (wireBits w).length = Config.txWidth := by simp [wireBits]

/-- Moving up one place and putting the word's next bit below is a shift by one place less. -/
theorem shiftLeft_or_bitAt (w : TxWord) (k : Nat) : (w >>> (k + 1)) <<< 1 ||| (bitAt w k).setWidth 32 = w >>> k := by
  refine BitVec.eq_of_getLsbD_eq fun i hi => ?_
  cases i with
  | zero => simp [bitAt]
  | succ i => simp [bitAt, hi, Nat.add_comm, Nat.add_left_comm]

/-- The first `n` bits sent are the word's upper `n` bits. -/
theorem wordOfWire_upper (w : TxWord) {n : Nat} (hn : n ≤ 32) :
    wordOfWire ((List.range n).map fun j => bitAt w (31 - j)) = w >>> (32 - n) := by
  unfold wordOfWire
  induction n with
  | zero => exact (BitVec.ushiftRight_eq_zero (Nat.le_refl 32)).symm
  | succ n ih =>
    have hnext := shiftLeft_or_bitAt w (31 - n)
    rw [show 31 - n + 1 = 32 - n by omega] at hnext
    rw [List.range_succ, List.map_append, List.foldl_append, ih (by omega), show 32 - (n + 1) = 31 - n by omega]
    exact hnext

theorem wordOfWire_wireBits (w : TxWord) : wordOfWire (wireBits w) = w := wordOfWire_upper w (Nat.le_refl 32)

theorem decodeWire_wireBits (w : TxWord) : decodeWire (wireBits w) = decode w := by
  rw [decodeWire, if_pos (length_wireBits w), wordOfWire_wireBits]

/-! ## The decoder by its rows -/

/-- Of two disjoint rows one at most covers a word: where both masks fix a bit, the patterns would both be the word's. -/
theorem OpcodeRow.not_covers_of_disjoint {r q : OpcodeRow} {w : TxWord} (hd : q.disjoint r = true)
    (hr : r.covers w = true) : ¬ q.covers w = true := by
  intro hq
  refine bne_iff_ne.mp hd ?_
  rw [← of_decide_eq_true hr, ← of_decide_eq_true hq]
  refine BitVec.eq_of_getLsbD_eq fun i _ => ?_
  simp only [BitVec.getLsbD_and, BitVec.getLsbD_xor, BitVec.getLsbD_zero]
  cases q.mask.getLsbD i <;> cases r.mask.getLsbD i <;> simp

/-- The row that covers a word decides what it decodes to, wherever the row stands in the table (R85). -/
theorem decode_of_covers {r : OpcodeRow} {w : TxWord} (hr : r ∈ opcodeTable) (hw : r.covers w = true) :
    decode w = .command (r.build w) := by
  obtain ⟨before, after, htable⟩ := List.append_of_mem hr
  have hdisjoint := opcodeTable_disjoint
  rw [htable, List.pairwise_append] at hdisjoint
  obtain ⟨-, -, hbefore⟩ := hdisjoint
  have hfind : opcodeTable.find? (fun q => q.covers w) = some r :=
    List.find?_eq_some_iff_append.mpr ⟨hw, before, after, htable, fun q hq => by
      simpa using OpcodeRow.not_covers_of_disjoint (hbefore q hq r List.mem_cons_self) hw⟩
  rw [decode, hfind]

/-! ## The fields of an encoded word -/

/-- Format N at the decided shift: the group below 23 zeros (R78, decision D8). -/
theorem formatN_ndShift (cg : BitVec 9) : formatN Config.ndShift cg = 0#23 ++ cg := by
  rw [formatN, Config.ndShift, BitVec.shiftLeft_zero, BitVec.setWidth_eq_append (by decide)]
  rfl

theorem dataOfD_formatD (cg : BitVec 9) (d : Data) : dataOfD (formatD cg d) = d := BitVec.extractLsb'_append_eq_right

theorem addrOfD_formatD (op : BitVec 2) (a : Addr) (d : Data) : addrOfD (formatD (commandGroup op a) d) = a := by
  rw [addrOfD, formatD, BitVec.extractLsb'_append_eq_of_le (Nat.le_refl 16),
    BitVec.extractLsb'_append_eq_of_add_le (by decide)]
  exact BitVec.extractLsb'_append_eq_right

theorem addrOfN_formatN (op : BitVec 2) (a : Addr) : addrOfN (formatN Config.ndShift (commandGroup op a)) = a := by
  rw [addrOfN, formatN_ndShift, BitVec.extractLsb'_append_eq_of_add_le (by decide)]
  exact BitVec.extractLsb'_append_eq_right

theorem formatD_and_append (cg mask : BitVec 9) (d : Data) :
    formatD cg d &&& (0x7F#7 ++ mask ++ 0#16) = formatD (cg &&& mask) 0#16 := by
  have hgroup : (0#7 ++ cg) &&& (0x7F#7 ++ mask) = 0#7 ++ (cg &&& mask) := by rw [BitVec.and_append, BitVec.zero_and]
  exact BitVec.and_append.trans (congrArg₂ (· ++ ·) hgroup BitVec.and_zero)

theorem formatN_and_append (cg mask : BitVec 9) :
    formatN Config.ndShift cg &&& (0x7FFFFF#23 ++ mask) = formatN Config.ndShift (cg &&& mask) := by
  rw [formatN_ndShift, formatN_ndShift]
  exact BitVec.and_append.trans (congrArg (· ++ (cg &&& mask)) BitVec.zero_and)

/-- A mask of the start bit and the opcode clears the operand field. -/
theorem commandGroup_and_append (op : BitVec 2) (f : BitVec 6) :
    commandGroup op f &&& (0b111#3 ++ 0#6) = commandGroup op 0#6 := by
  rw [commandGroup, BitVec.and_append, show 0b111#3 = BitVec.allOnes 3 from rfl, BitVec.and_allOnes, BitVec.and_zero]
  rfl

/-- Every command has a row that covers its word and builds the command back (R79). -/
theorem exists_row_of_encode (i : Instr) :
    ∃ r ∈ opcodeTable, r.covers (encode i) = true ∧ r.build (encode i) = i := by
  cases i with
  | writeDisable => exact ⟨opcodeTable[0], List.getElem_mem _, by decide, rfl⟩
  | writeAll d =>
    have hmask := formatD_and_append (commandGroup 0b00#2 (selectorField Config.subopShift 1#2)) 0x1FF#9 d
    exact ⟨opcodeTable[1], List.getElem_mem _, decide_eq_true hmask,
      congrArg Instr.writeAll (dataOfD_formatD _ d)⟩
  | eraseAll => exact ⟨opcodeTable[2], List.getElem_mem _, by decide, rfl⟩
  | writeEnable => exact ⟨opcodeTable[3], List.getElem_mem _, by decide, rfl⟩
  | writeShort a d =>
    have hmask := formatD_and_append (commandGroup 0b01#2 a) (0b111#3 ++ 0#6) d
    rw [commandGroup_and_append] at hmask
    exact ⟨opcodeTable[4], List.getElem_mem _, decide_eq_true hmask,
      congrArg₂ Instr.writeShort (addrOfD_formatD _ a d) (dataOfD_formatD _ d)⟩
  | readShort a =>
    have hmask := formatN_and_append (commandGroup 0b10#2 a) (0b111#3 ++ 0#6)
    rw [commandGroup_and_append] at hmask
    exact ⟨opcodeTable[5], List.getElem_mem _, decide_eq_true hmask, congrArg Instr.readShort (addrOfN_formatN _ a)⟩
  | eraseShort a =>
    have hmask := formatN_and_append (commandGroup 0b11#2 a) (0b111#3 ++ 0#6)
    rw [commandGroup_and_append] at hmask
    exact ⟨opcodeTable[6], List.getElem_mem _, decide_eq_true hmask, congrArg Instr.eraseShort (addrOfN_formatN _ a)⟩

theorem decode_encode (i : Instr) : decode (encode i) = .command i := by
  obtain ⟨r, hr, hcovers, hbuild⟩ := exists_row_of_encode i
  rw [decode_of_covers hr hcovers, hbuild]

/-- Settles O3: the wire carries the word, and the word decodes to its command. -/
theorem wireBitsRoundTrip : Obligations.WireBitsRoundTrip := fun i =>
  ⟨length_wireBits (encode i), (decodeWire_wireBits (encode i)).trans (decode_encode i)⟩

end Sys2Proof
end

section
/-! PROOFS. The bits a device takes from the wire in each part of a transaction (R51, R61, R83). -/

namespace Sys2Proof.Machine

@[simp] theorem bitsTaken_nil (l : Lines) : bitsTaken l [] = [] := rfl

theorem bitsTaken_cons (l : Lines) (e : PinEvent) (es : List PinEvent) :
    bitsTaken l (e :: es) =
      (if e == .sk 1#1 && l.cs == 1#1 then [l.dout] else []) ++ bitsTaken (applyEvent l e) es := by
  rw [bitsTaken]
  split <;> rfl

theorem bitsTaken_append (l : Lines) (es fs : List PinEvent) :
    bitsTaken l (es ++ fs) = bitsTaken l es ++ bitsTaken (linesAfter l es) fs := by
  induction es generalizing l with
  | nil => rfl
  | cons e es ih => rw [List.cons_append, bitsTaken_cons, bitsTaken_cons, linesAfter_cons, ih, List.append_assoc]

/-! ## Bits taken between two conditions on the lines -/

/-- From lines with `P` the device takes `bits` from the events, which leave lines with `Q`. -/
def Takes (P : Lines → Prop) (es : List PinEvent) (bits : List Bit) (Q : Lines → Prop) : Prop :=
  ∀ l, P l → bitsTaken l es = bits ∧ Q (linesAfter l es)

section
variable {P Q R : Lines → Prop} {es fs : List PinEvent} {bits bits' : List Bit}

theorem Takes.nil (P : Lines → Prop) : Takes P [] [] P := fun _ hl => ⟨rfl, hl⟩

theorem Takes.append (h : Takes P es bits Q) (h' : Takes Q fs bits' R) : Takes P (es ++ fs) (bits ++ bits') R := by
  intro l hl
  obtain ⟨hbits, hq⟩ := h l hl
  obtain ⟨hbits', hr⟩ := h' _ hq
  rw [bitsTaken_append, linesAfter_append, hbits, hbits']
  exact ⟨rfl, hr⟩

theorem Takes.weaken (h : Takes P es bits Q) (hQR : ∀ l, Q l → R l) : Takes P es bits R := fun l hl =>
  ⟨(h l hl).1, hQR _ (h l hl).2⟩

/-- Groups of events that each give one bit and keep what the next group needs give their bits in order. -/
theorem Takes.flatMap {α : Type} {f : α → List PinEvent} {g : α → Bit} (h : ∀ a, Takes P (f a) [g a] P) (as : List α) :
    Takes P (as.flatMap f) (as.map g) P := by
  induction as with
  | nil => exact Takes.nil P
  | cons a as ih => exact (h a).append ih

/-- `n` groups of events in which the data line stays low. -/
theorem Takes.zeros {f : Nat → List PinEvent} (h : ∀ k, Takes P (f k) [0#1] P) (n : Nat) :
    Takes P ((List.range n).flatMap f) (List.replicate n 0#1) P := by
  have hall := Takes.flatMap h (List.range n)
  rwa [List.map_const', List.length_range] at hall

end

/-! ## The parts of a transaction -/

/-- The data line is low, as in a poll and a read (R39d). -/
abbrev Lines.DoutLow (l : Lines) : Prop := l.dout = 0#1

/-- The device is selected (R28). -/
abbrev Lines.Selected (l : Lines) : Prop := l.cs = 1#1

/-- Both: what a clock pulse gives the device is a 0. -/
abbrev Lines.SelectedLow (l : Lines) : Prop := l.Selected ∧ l.DoutLow

/-- The start of a transaction, whatever the lines were. -/
theorem start_takes (P : Lines → Prop) : Takes P [.dout 0#1, .sk 0#1, .dwell .tSettle] [] Lines.DoutLow :=
  fun _ _ => ⟨rfl, rfl⟩

theorem pollEvents_takes (p : Bit) : Takes Lines.DoutLow (pollEvents p) [0#1] Lines.SelectedLow :=
  fun _ hl => ⟨congrArg List.singleton hl, rfl, hl⟩

theorem busyEvents_takes (p : Bit) : Takes Lines.DoutLow (busyEvents p) [0#1] Lines.DoutLow :=
  (pollEvents_takes p).append (bits' := []) fun _ ⟨_, hlow⟩ => ⟨rfl, hlow⟩

theorem busyTrace_takes (answers : Nat → Bit) (b : Nat) :
    Takes Lines.DoutLow (busyTrace answers b) (List.replicate b 0#1) Lines.DoutLow :=
  Takes.zeros (fun k => busyEvents_takes (answers k)) b

/-- The poll with its ready answer after `b` busy ones (R61). -/
theorem poll_takes (answers : Nat → Bit) (b : Nat) :
    Takes Lines.DoutLow (busyTrace answers b ++ pollEvents (answers b)) (List.replicate (b + 1) 0#1) Lines.Selected := by
  rw [List.replicate_succ']
  exact (busyTrace_takes answers b).append ((pollEvents_takes _).weaken fun _ => And.left)

theorem sendEvents_takes (v : Bit) : Takes Lines.Selected (sendEvents v) [v] Lines.Selected :=
  fun l hl => ⟨by simp [sendEvents, bitsTaken_cons, applyEvent, hl], hl⟩

theorem sendTrace_takes (w : TxWord) : Takes Lines.Selected (sendTrace w) (wireBits w) Lines.Selected := by
  have h := Takes.flatMap sendEvents_takes (wireBits w)
  rwa [List.map_id'] at h

theorem receiveEvents_takes (r : Bit) :
    Takes Lines.SelectedLow (receiveEvents r) [0#1] Lines.SelectedLow :=
  fun l ⟨hcs, hdout⟩ => ⟨by simp [receiveEvents, bitsTaken_cons, applyEvent, hcs, hdout], hcs, hdout⟩

theorem receiveTrace_takes (r : Nat → Bit) :
    Takes Lines.Selected (receiveTrace r) (List.replicate Config.rxBits 0#1) Lines.SelectedLow :=
  Takes.append (es := [.dout 0#1]) (bits := []) (fun _ hl => ⟨rfl, hl, rfl⟩)
    (Takes.zeros (fun k => receiveEvents_takes (r k)) Config.rxBits)

/-- The read phase, if there is one. -/
theorem readPhase_takes (wr : Bit) (r : Nat → Bit) :
    Takes Lines.Selected (if wr = 1#1 then receiveTrace r else [])
      (if wr = 1#1 then List.replicate Config.rxBits 0#1 else []) Lines.Selected := by
  split
  · exact (receiveTrace_takes r).weaken fun _ => And.left
  · exact Takes.nil _

/-- The end of a transaction: no clock edge. -/
theorem end_takes (P : Lines → Prop) : Takes P [.dwell .tCsh, .cs 0#1, .dwell .tCsl] [] fun _ => True :=
  fun _ _ => ⟨rfl, trivial⟩

/-! ## The whole transaction -/

section
variable (t : Transaction) {answers : Nat → Bit} (l : Lines)

theorem bitsTaken_transact_of_timeout (h : busyBefore answers = none) :
    bitsTaken l (transact t answers).trace = List.replicate Config.retryBudget 0#1 := by
  have hparts := (start_takes fun _ => True).append (busyTrace_takes answers Config.retryBudget)
  simp only [transact, h]
  exact (hparts l trivial).1

theorem bitsTaken_transact_of_ready {b : Nat} (h : busyBefore answers = some b) :
    bitsTaken l (transact t answers).trace =
      List.replicate (b + 1) 0#1 ++ wireBits t.word ++
        if t.wantsRead = 1#1 then List.replicate Config.rxBits 0#1 else [] := by
  have hparts := ((((start_takes fun _ => True).append (poll_takes answers b)).append (sendTrace_takes t.word)).append
    (readPhase_takes t.wantsRead fun j => answers (b + 1 + j))).append (end_takes _)
  simpa only [transact, h, List.append_assoc, List.nil_append, List.append_nil] using (hparts l trivial).1

end

/-- Settles O46: the bits of the poll, of the word and of the read phase, one after the other. Taking a bit at the clock's rise
is the model's choice (log 24). -/
theorem deviceTakesExactlyTheWord : Obligations.DeviceTakesExactlyTheWord := fun w wr _ =>
  ⟨bitsTaken_transact_of_timeout ⟨w, wr⟩ resetLines, fun _ => bitsTaken_transact_of_ready ⟨w, wr⟩ resetLines⟩

end Sys2Proof.Machine
end

section
/-! PROOFS. The transmit words as numbers (R70, R77, R78, R79): a group, a word of each format, a word of each command. -/

namespace Sys2Proof

/-! ## The formats -/

theorem toNat_append_eq_add {m n : Nat} (x : BitVec m) (y : BitVec n) :
    (x ++ y).toNat = x.toNat * 2 ^ n + y.toNat := by
  rw [BitVec.toNat_append, ← Nat.shiftLeft_add_eq_or_of_lt y.isLt, Nat.shiftLeft_eq]

theorem toNat_zero_append (m : Nat) {n : Nat} (x : BitVec n) : (0#m ++ x).toNat = x.toNat := by
  simp

theorem toNat_commandGroup (op : BitVec 2) (f : BitVec 6) :
    (commandGroup op f).toNat = 0x100 + op.toNat * 0x40 + f.toNat := by
  simp only [commandGroup, toNat_append_eq_add, BitVec.toNat_ofNat]
  omega

theorem toNat_formatD (cg : BitVec 9) (d : Data) : (formatD cg d).toNat = cg.toNat * 0x10000 + d.toNat := by
  have hgroup : (0#7 ++ cg).toNat = cg.toNat := toNat_zero_append 7 cg
  exact hgroup ▸ toNat_append_eq_add (0#7 ++ cg) d

theorem toNat_formatN (cg : BitVec 9) : (formatN Config.ndShift cg).toNat = cg.toNat := by
  rw [formatN_ndShift]
  exact toNat_zero_append 23 cg

/-! ## The commands -/

theorem toNat_encode_of_data {i : Instr} {d : Data} (h : dataOperand i = some d) :
    (encode i).toNat =
      (0x100 + (opcodeOf i).toNat * 0x40 + (fieldOf Config.subopShift i).toNat) * 0x10000 + d.toNat := by
  simp only [encode, encodeWith, h, toNat_formatD, toNat_commandGroup]

theorem toNat_encode_of_no_data {i : Instr} (h : dataOperand i = none) :
    (encode i).toNat = 0x100 + (opcodeOf i).toNat * 0x40 + (fieldOf Config.subopShift i).toNat := by
  simp only [encode, encodeWith, h, toNat_formatN, toNat_commandGroup]

theorem toNat_encode_writeAll (d : Data) : (encode (.writeAll d)).toNat = 0x01010000 + d.toNat := by
  have h : (encode (.writeAll d)).toNat = 0x101 * 0x10000 + d.toNat := toNat_encode_of_data rfl
  omega

theorem toNat_encode_writeShort (a : Addr) (d : Data) :
    (encode (.writeShort a d)).toNat = 0x01400000 + a.toNat * 0x10000 + d.toNat := by
  have h : (encode (.writeShort a d)).toNat = (0x140 + a.toNat) * 0x10000 + d.toNat := toNat_encode_of_data rfl
  omega

theorem toNat_encode_readShort (a : Addr) : (encode (.readShort a)).toNat = 0x180 + a.toNat :=
  toNat_encode_of_no_data rfl

theorem toNat_encode_eraseShort (a : Addr) : (encode (.eraseShort a)).toNat = 0x1C0 + a.toNat :=
  toNat_encode_of_no_data rfl

/-- Settles O4: each word as the number of its format; the layout is the spec's decisions D8 to D10 (log 8). -/
theorem transmitWordsAsNumbers : Obligations.TransmitWordsAsNumbers :=
  ⟨toNat_encode_of_no_data rfl, toNat_encode_writeAll, toNat_encode_of_no_data rfl, toNat_encode_of_no_data rfl,
    toNat_encode_writeShort, toNat_encode_readShort, toNat_encode_eraseShort⟩

/-! ## The start bit -/

/-- Where the start bit stands: above the group's other eight bits, and above the data where there is any (R77, R78). -/
def startBit (i : Instr) : Nat := if (dataOperand i).isSome then 24 else 8

theorem toNat_encode_bounds (i : Instr) :
    2 ^ startBit i ≤ (encode i).toNat ∧ (encode i).toNat < 2 ^ (startBit i + 1) := by
  have hop := (opcodeOf i).isLt
  have hfield := (fieldOf Config.subopShift i).isLt
  cases hdata : dataOperand i with
  | none =>
    have hstart : startBit i = 8 := by simp [startBit, hdata]
    rw [toNat_encode_of_no_data hdata, hstart]
    omega
  | some d =>
    have hstart : startBit i = 24 := by simp [startBit, hdata]
    have hd := d.isLt
    rw [toNat_encode_of_data hdata, hstart]
    omega

/-- Settles O5: a number from `2 ^ p` up to `2 ^ (p + 1)` has bit `p` for its highest 1 (R84; D8, D10). -/
theorem startBitIsHighestOne : Obligations.StartBitIsHighestOne := by
  intro i
  obtain ⟨hlow, hhigh⟩ := toNat_encode_bounds i
  refine ⟨Nat.testBit_of_two_pow_le_and_two_pow_add_one_gt hlow hhigh, fun j hj => ?_⟩
  exact Nat.testBit_lt_two_pow (hhigh.trans_le (Nat.pow_le_pow_right Nat.two_pos hj))

end Sys2Proof
end

section
/-! PROOFS. Decoding inverts encoding, both ways (R79, R85). -/

namespace Sys2Proof

/-! ## The fields of a word as numbers -/

theorem toNat_dataOfD (w : TxWord) : (dataOfD w).toNat = w.toNat % 0x10000 := BitVec.extractLsb'_toNat ..

theorem toNat_addrOfD (w : TxWord) : (addrOfD w).toNat = w.toNat / 0x10000 % 0x40 := by
  rw [addrOfD, BitVec.extractLsb'_toNat, Nat.shiftRight_eq_div_pow]

theorem toNat_addrOfN (w : TxWord) : (addrOfN w).toNat = w.toNat % 0x40 := BitVec.extractLsb'_toNat ..

/-- A mask of all but the low `k` bits clears those. -/
theorem and_allOnes_shiftLeft {n : Nat} (w : BitVec n) (k : Nat) : w &&& (BitVec.allOnes n <<< k) = w >>> k <<< k := by
  refine BitVec.eq_of_getLsbD_eq fun i hi => ?_
  by_cases hik : i < k
  · simp [hi, hik]
  · simp [hi, hik, show k + (i - k) = i by omega]

/-- A word is its part under such a mask, and the bits below. -/
theorem toNat_eq_of_upper {w p : TxWord} (k : Nat) (h : w &&& (BitVec.allOnes 32 <<< k) = p) :
    w.toNat = p.toNat + w.toNat % 2 ^ k := by
  have hle : w.toNat / 2 ^ k * 2 ^ k ≤ w.toNat := Nat.div_mul_le_self ..
  rw [← h, and_allOnes_shiftLeft, BitVec.toNat_shiftLeft, BitVec.toNat_ushiftRight, Nat.shiftRight_eq_div_pow,
    Nat.shiftLeft_eq, Nat.mod_eq_of_lt (hle.trans_lt w.isLt), Nat.div_add_mod']

/-- A mask of all 32 bits keeps the word. -/
theorem eq_of_full_mask {w p : TxWord} (h : w &&& 0xFFFFFFFF#32 = p) : w = p := BitVec.and_allOnes.symm.trans h

/-- What a row builds from a word it covers has that word for its transmit word (R79). -/
theorem encode_build_of_covers {r : OpcodeRow} {w : TxWord} (hr : r ∈ opcodeTable) (hw : r.covers w = true) :
    encode (r.build w) = w := by
  have hfixed : w &&& r.mask = r.pattern := of_decide_eq_true hw
  simp only [opcodeTable, List.mem_cons, List.not_mem_nil, or_false] at hr
  rcases hr with rfl | rfl | rfl | rfl | rfl | rfl | rfl
  · rw [eq_of_full_mask hfixed]; decide
  · refine BitVec.eq_of_toNat_eq ?_
    rw [toNat_encode_writeAll, toNat_dataOfD]
    exact (toNat_eq_of_upper 16 hfixed).symm
  · rw [eq_of_full_mask hfixed]; decide
  · rw [eq_of_full_mask hfixed]; decide
  · have hupper : w.toNat = 0x01400000 + w.toNat % 2 ^ 22 := toNat_eq_of_upper 22 hfixed
    refine BitVec.eq_of_toNat_eq ?_
    rw [toNat_encode_writeShort, toNat_addrOfD, toNat_dataOfD]
    omega
  · refine BitVec.eq_of_toNat_eq ?_
    rw [toNat_encode_readShort, toNat_addrOfN]
    exact (toNat_eq_of_upper 6 hfixed).symm
  · refine BitVec.eq_of_toNat_eq ?_
    rw [toNat_encode_eraseShort, toNat_addrOfN]
    exact (toNat_eq_of_upper 6 hfixed).symm

/-- A word decodes to the one command it is the word of, and to nothing if it is no command's (R85). -/
theorem decode_eq_command_iff {w : TxWord} {i : Instr} : decode w = .command i ↔ encode i = w := by
  constructor
  · intro h
    obtain ⟨r, hr, hcovers, rfl⟩ := decode_command_row h
    exact encode_build_of_covers hr hcovers
  · rintro rfl
    exact decode_encode i

/-- Settles O1: a command's word decodes to the command; the words are the spec's decisions D8 to D10 (log 8). -/
theorem decodeEncodeRoundTrip : Obligations.DecodeEncodeRoundTrip := decode_encode

/-- Settles O2: only a command's own word decodes to it. -/
theorem decodedWordsAreEncodings : Obligations.DecodedWordsAreEncodings := fun _ _ => decode_eq_command_iff.mp

/-- Settles O8: five words are encodings of their commands; the sixth belongs to no row (D8 to D10). -/
theorem wordsOfTheTableDecode : Obligations.WordsOfTheTableDecode :=
  ⟨decode_eq_command_iff.mpr (by decide), decode_eq_command_iff.mpr (by decide), decode_eq_command_iff.mpr (by decide),
    decode_eq_command_iff.mpr (by decide), decode_eq_command_iff.mpr (by decide), by decide⟩

end Sys2Proof
end

section
/-! PROOFS. The command port by its kind codes: the operands each carries, and the reserved kind (R72, R81, R82). -/

namespace Sys2Proof

/-! ## What each kind carries -/

theorem kind_selector_cases {k : BitVec 3} (h : k.toNat ≤ 3) : k = 0#3 ∨ k = 1#3 ∨ k = 2#3 ∨ k = 3#3 := by
  revert k; decide

theorem kind_addressed_cases {k : BitVec 3} (h : 4 ≤ k.toNat) (h' : k.toNat ≤ 6) : k = 4#3 ∨ k = 5#3 ∨ k = 6#3 := by
  revert k; decide

/-- Kinds 0 to 3 carry no address. -/
theorem decodePort_congr_addr {k : BitVec 3} (h : k.toNat ≤ 3) (a a' : Addr) (d : Data) :
    decodePort { kind := k, addr := a, data := d } = decodePort { kind := k, addr := a', data := d } := by
  obtain rfl | rfl | rfl | rfl := kind_selector_cases h <;> rfl

/-- Kinds 0, 2, 3, 5 and 6 carry no data. -/
theorem decodePort_congr_data {k : BitVec 3} (h : k = 0#3 ∨ k = 2#3 ∨ k = 3#3 ∨ k = 5#3 ∨ k = 6#3) (a : Addr)
    (d d' : Data) : decodePort { kind := k, addr := a, data := d } = decodePort { kind := k, addr := a, data := d' } := by
  obtain rfl | rfl | rfl | rfl | rfl := h <;> rfl

/-- The engine's encoder sees no more of the port than the command it carries (R80). -/
theorem portWord_congr {c c' : PortCommand} (h : decodePort c = decodePort c') : portWord c = portWord c' := by
  rw [portWord, portWord, h]

/-- Settles O6: an operand the command does not carry is not read from the port (decision D11). -/
theorem uncarriedOperandsIgnored : Obligations.UncarriedOperandsIgnored := fun _ a a' d d' =>
  ⟨fun h => portWord_congr (decodePort_congr_addr h a a' d), fun h => portWord_congr (decodePort_congr_data h a d d')⟩

/-! ## The kind codes -/

theorem decodePort_of_selector {k : BitVec 3} (h : k.toNat ≤ 3) (a : Addr) (d : Data) :
    ∃ i, decodePort { kind := k, addr := a, data := d } = .command i ∧ opcodeOf i = 0#2 ∧
      fieldOf Config.subopShift i = selectorField Config.subopShift (k.extractLsb' 0 2) := by
  obtain rfl | rfl | rfl | rfl := kind_selector_cases h <;> exact ⟨_, rfl, rfl, rfl⟩

theorem decodePort_of_addressed {k : BitVec 3} (h : 4 ≤ k.toNat) (h' : k.toNat ≤ 6) (a : Addr) (d : Data) :
    ∃ i, decodePort { kind := k, addr := a, data := d } = .command i ∧ opcodeOf i = k.extractLsb' 0 2 + 1#2 ∧
      fieldOf Config.subopShift i = a := by
  obtain rfl | rfl | rfl := kind_addressed_cases h h' <;> exact ⟨_, rfl, rfl, rfl⟩

theorem decodePort_of_reserved {c : PortCommand} (h : c.kind = 7#3) : decodePort c = .rejected .reservedKind := by
  simp [decodePort, h]

/-- Settles O7: the kinds with a selector, the kinds with an address, and the reserved one (decisions D3, D4). -/
theorem kindCodesOfThePort : Obligations.KindCodesOfThePort := fun _ a d =>
  ⟨fun h => decodePort_of_selector h a d, fun h h' => decodePort_of_addressed h h' a d, fun h => decodePort_of_reserved h⟩

/-- The port form of a command carries the command (R72). -/
theorem decodePort_encodePort (i : Instr) : decodePort (encodePort i) = .command i := by
  cases i <;> rfl

end Sys2Proof

namespace Sys2Proof.Machine

/-- An idle engine refuses a start whose port carries no command (R82). -/
theorem step_of_rejected {s : State} {r : DecodeReject} (hp : s.ph = .idle) (hr : s.port.rst ≠ 1#1)
    (hs : s.port.start = 1#1) (hd : decodePort s.port.command = .rejected r) : step s = .refused .reservedKind := by
  simp [step, presented, hr, hs, hd, presentReserved, hp, afterEdge]

/-- Settles O12: the reserved kind carries no command (decision D4). -/
theorem reservedKindRefused : Obligations.ReservedKindRefused := fun _ hp hrst hs hk =>
  step_of_rejected hp (bit_ne_one_iff.mpr hrst) hs (decodePort_of_reserved hk)

end Sys2Proof.Machine
end

section
/-! PROOFS. The host's whole transaction from an idle engine, and the dispatcher's read (R89, R140, R173). -/

namespace Sys2Proof.Machine

/-! ## Presenting and waiting -/

theorem accepts_present (x : Issue) {s : State} (hp : s.ph = .idle) : Accepts (present x s) x.instr :=
  ⟨hp, rfl, rfl, decodePort_encodePort x.instr⟩

theorem noReset_present (x : Issue) (s : State) : NoReset (present x s) := ⟨rfl, by simp [present, issuePort]⟩

/-- Presenting a command changes nothing the device answers. -/
theorem present_answer (x : Issue) (s : State) (k : Nat) : (present x s).answer k = s.answer k := rfl

theorem waitIdle_of_idle {s : State} (hp : s.ph = .idle) (fuel : Nat) : waitIdle fuel s = .next s := by
  cases fuel with
  | zero => rfl
  | succ fuel => exact if_pos hp

theorem waitIdle_succ_of_step {s t : State} (hp : s.ph ≠ .idle) (h : step s = .next t) (fuel : Nat) :
    waitIdle (fuel + 1) s = waitIdle fuel t := by
  simp [waitIdle, hp, h]

/-- A step of a busy engine short of reset is its phase exit, while the host moves on. -/
theorem step_withHost_of_busy {s : State} (hp : s.ph ≠ .idle) {p : HostPort} {ps : List HostPort} {n : Nat}
    (hr : NoReset (s.withHost p ps n)) :
    ∃ p' ps', step (s.withHost p ps n) = .next ((phaseExit s).withHost p' ps' n) ∧
      NoReset ((phaseExit s).withHost p' ps' n) := by
  obtain ⟨p', ps', hmoves⟩ := advanceHost_eq_withHost ((phaseExit s).withHost p ps n)
  have hquiet : NoReset (advanceHost ((phaseExit s).withHost p ps n)) :=
    NoReset.advanceHost (s := (phaseExit s).withHost p ps n) hr
  refine ⟨p', ps', ?_, hmoves ▸ hquiet⟩
  rw [step_of_busy hr.rst_ne_one hp, phaseExit_withHost]
  exact congrArg _ hmoves

/-- A wait with fuel enough runs through a busy run to its idle end, while the host moves on. -/
theorem BusyRun.waitIdle {k : Nat} {s t : State} (h : BusyRun k s t) (ht : t.ph = .idle) {fuel : Nat} (hk : k ≤ fuel)
    {p : HostPort} {ps : List HostPort} {n : Nat} (hr : NoReset (s.withHost p ps n)) :
    ∃ p' ps', Machine.waitIdle fuel (s.withHost p ps n) = .next (t.withHost p' ps' n) := by
  induction h generalizing fuel p ps with
  | refl s => exact ⟨p, ps, waitIdle_of_idle (s := s.withHost p ps n) ht fuel⟩
  | @step k s t u hp hexit _ ih =>
    obtain ⟨rest, rfl⟩ : ∃ rest, fuel = rest + 1 := Nat.exists_eq_succ_of_ne_zero (by omega)
    obtain ⟨p', ps', hstep, hquiet⟩ := step_withHost_of_busy hp hr
    rw [waitIdle_succ_of_step (s := s.withHost p ps n) hp hstep]
    rw [hexit] at hquiet ⊢
    exact ih ht (Nat.le_of_succ_le_succ hk) hquiet

/-- The host's transaction is the accepted start and the busy run to its end (R140). -/
theorem runTransaction_of_busyRun {x : Issue} {s t : State} {k : Nat} (hp : s.ph = .idle)
    (hrun : BusyRun k (acceptedStart (encode x.instr) (present x s)) t) (ht : t.ph = .idle) (hk : k ≤ transactFuel) :
    ∃ p ps, runTransaction x s = .next (t.withHost p ps s.waitCnt) := by
  obtain ⟨p, ps, hmoves⟩ := advanceHost_eq_withHost (acceptedStart (encode x.instr) (present x s))
  have hquiet : NoReset (advanceHost (acceptedStart (encode x.instr) (present x s))) :=
    NoReset.advanceHost (s := acceptedStart (encode x.instr) (present x s)) (noReset_present x s)
  obtain ⟨p', ps', hwait⟩ := hrun.waitIdle ht hk (hmoves ▸ hquiet)
  refine ⟨p', ps', ?_⟩
  simp only [runTransaction, step_of_accepts (accepts_present x hp), hmoves]
  exact hwait

/-! ## A transaction with a read -/

/-- The status port does not show the host's signals (R31). -/
theorem transactResult_withHost (s : State) (p : HostPort) (ps : List HostPort) (n : Nat) :
    (s.withHost p ps n).transactResult = s.transactResult := rfl

theorem transactResult_finished_of_read {s : State} (hwr : s.wr = 1#1) (ht : s.timeout = 0#1) :
    (finished s).transactResult = .success (some s.rx) := by
  have hdone : (finished s).done = 1#1 := rfl
  have hvalid : (finished s).resultValid = 1#1 := if_pos hwr
  have hresult : (finished s).result = s.rx := if_pos hwr
  rw [transactResult_of_success hdone ht, if_pos hvalid, hresult]

/-- All seventeen bits read leave the value after the dummy in `RX` (R87). -/
theorem reading_rx (s : State) : (reading s Config.rxBits).rx = readValue s.answer := foldl_shiftIn_seventeen ..

/-- With the device ready within the budget a transaction with the read flag reports the sixteen bits read (R87, R149). -/
theorem runTransaction_of_ready_read {x : Issue} (hwr : x.wantsRead = 1#1) {s : State} {b : Nat}
    (hp : s.ph = .idle) (hb : busyBefore s.answer = some b) :
    ∃ t, runTransaction x s = .next t ∧
      t.transactResult = .success (some (readValue fun j => s.answer (b + 1 + j))) := by
  have hrun := transaction_run_with_read (s := acceptedStart (encode x.instr) (present x s)) rfl rfl rfl hb hwr
  have hfuel : 104 + 4 * b ≤ transactFuel := by
    have hbudget : b < 111 := (busyBefore_eq_some hb).1
    unfold transactFuel
    omega
  obtain ⟨p, ps, hend⟩ := runTransaction_of_busyRun hp hrun rfl hfuel
  refine ⟨_, hend, ?_⟩
  rw [transactResult_withHost, transactResult_finished_of_read hwr rfl, reading_rx,
    funext (sent_pollSampled_answer _ b)]
  rfl

/-! ## The dispatcher -/

theorem dispatch_read (a : Addr) (s : State) (st : RegisterStore) :
    dispatch (.read a.toNat) s st = runIssues [{ instr := .readShort a, wantsRead := 1#1 }] s st := by
  simp [dispatch, validateCall, addrInRange_toNat, expandCall, recordIntent]

/-- A call of one transaction that succeeds gives its value and puts it in the store (R173). -/
theorem runIssues_singleton_of_success {x : Issue} {s t : State} {v : Option Data} (hrun : runTransaction x s = .next t)
    (hresult : t.transactResult = .success v) (st : RegisterStore) :
    runIssues [x] s st = { machine := t, store := recordResult st x v, values := .ok v.toList } := by
  simp [runIssues, hrun, hresult, Except.map]

/-- Settles O52: the one transaction of a read succeeds with the bits read, which are returned and stored (decision D20; log 19,
log 20). -/
theorem dispatcherReadReturnsTheValueRead : Obligations.DispatcherReadReturnsTheValueRead := by
  intro s st a b hp hb
  obtain ⟨t, hrun, hresult⟩ := runTransaction_of_ready_read (x := ⟨.readShort a, 1#1⟩) rfl hp hb
  rw [dispatch_read, runIssues_singleton_of_success hrun hresult]
  exact ⟨rfl, rfl⟩

end Sys2Proof.Machine
end

section
/-! PROOFS. The edge of a command in `IDLE`: what an accepted start latches, for every command and every word of the table
(R103, R140 to R147). -/

namespace Sys2Proof.Machine

/-! ## The accepted start of every command -/

/-- A command in `IDLE` latches its word as R103 says. -/
theorem exec_of_idle (i : Instr) {s : State} (hp : s.ph = .idle) : exec i s = .next (startedWith (encode i) s) :=
  (exec_eq_presentWord i s).trans (congrArg Host.Outcome.next (presentWord_of_idle hp))

theorem step_of_command {s : State} {i : Instr} (hrst : s.port.rst = 0#1) (hs : s.port.start = 1#1)
    (hd : decodePort s.port.command = .command i) : step s = .next (advanceHost (presentWord (encode i) s)) := by
  simp [step, presented, hrst, hs, hd, exec_eq_presentWord, afterEdge]

/-- Settles O14: a start without reset runs the command on the port; the host's moves after it are the model's own
(log 2). -/
theorem stepRunsThePortsCommand : Obligations.StepRunsThePortsCommand := fun s i hrst hs hd =>
  ⟨presentWord (encode i) s, exec_eq_presentWord i s, step_of_command hrst hs hd⟩

/-- Settles O16: the accepted start is R103 written out (D14; the words D8 to D10; log 2). -/
theorem acceptedStartWrites : Obligations.AcceptedStartWrites := fun _ _ => step_of_accepts

/-- Settles O19: R103 writes none of these fields. -/
theorem commandStartFrame : Obligations.CommandStartFrame := by
  intro i s t hp hexec
  obtain rfl : startedWith (encode i) s = t := Host.Outcome.next.inj ((exec_of_idle i hp).symm.trans hexec)
  exact ⟨rfl, rfl, rfl, rfl, rfl, rfl, rfl, rfl, rfl⟩

/-! ## The words of the table -/

theorem decodeTableWord_encode (i : Instr) : decodeTableWord 32 (encode i).toNat = some i := by
  have hfits : 32 ≤ Config.txWidth ∧ (encode i).toNat < 2 ^ Config.txWidth := ⟨Nat.le_refl 32, (encode i).isLt⟩
  rw [decodeTableWord, if_pos hfits, BitVec.ofNat_toNat, BitVec.setWidth_eq, decode_encode]
  rfl

/-- Placing a command's word presents that command (log 13). -/
theorem withFetchWord_encode (s : State) (i : Instr) :
    s.withFetchWord 32 (encode i).toNat =
      { s with port := { rst := 0#1, start := 1#1, command := encodePort i, wantsRead := s.port.wantsRead } } := by
  simp only [State.withFetchWord, decodeTableWord_encode]

/-- Settles O15: the command of a placed word is accepted (log 13). -/
theorem stepRunsThePlacedWord : Obligations.StepRunsThePlacedWord := by
  intro s i hp
  rw [withFetchWord_encode]
  exact step_of_accepts ⟨hp, rfl, rfl, decodePort_encodePort i⟩

theorem encode_writeAll (d : Data) : encode (.writeAll d) = 0#7 ++ 0b100000001#9 ++ d := by
  have hgroup : commandGroup 0b00#2 (selectorField Config.subopShift 1#2) = 0b100000001#9 := by decide
  exact congrArg (formatD · d) hgroup

theorem encode_writeShort (a : Addr) (d : Data) : encode (.writeShort a d) = 0#7 ++ 0b101#3 ++ a ++ d := by
  have hgroup : commandGroup 0b01#2 a = 0b101#3 ++ a := congrArg (· ++ a) (by decide : 1#1 ++ 0b01#2 = 0b101#3)
  calc encode (.writeShort a d) = formatD (0b101#3 ++ a) d := congrArg (formatD · d) hgroup
    _ = 0#7 ++ 0b101#3 ++ a ++ d := congrArg (· ++ d) (BitVec.append_assoc (x₁ := 0#7) (x₂ := 0b101#3) (x₃ := a)).symm

theorem encode_readShort (a : Addr) : encode (.readShort a) = (0b110#3 ++ a).setWidth 32 := by
  have hgroup : commandGroup 0b10#2 a = 0b110#3 ++ a := congrArg (· ++ a) (by decide : 1#1 ++ 0b10#2 = 0b110#3)
  exact (BitVec.shiftLeft_zero _).trans (congrArg (BitVec.setWidth 32) hgroup)

theorem encode_eraseShort (a : Addr) : encode (.eraseShort a) = (0b111#3 ++ a).setWidth 32 := by
  have hgroup : commandGroup 0b11#2 a = 0b111#3 ++ a := congrArg (· ++ a) (by decide : 1#1 ++ 0b11#2 = 0b111#3)
  exact (BitVec.shiftLeft_zero _).trans (congrArg (BitVec.setWidth 32) hgroup)

/-- A command in `IDLE` latches its word, however that word is written. -/
theorem exec_of_idle_of_encode {i : Instr} {w : TxWord} (hw : encode i = w) {s : State} (hp : s.ph = .idle) :
    exec i s = .next (startedWith w s) := hw ▸ exec_of_idle i hp

/-- Settles O17: the words of the four opcode-00 commands (decisions D8, D9, D10). -/
theorem selectorCommandsStart : Obligations.SelectorCommandsStart := fun _ hp =>
  ⟨exec_of_idle_of_encode (by decide) hp, fun d => exec_of_idle_of_encode (encode_writeAll d) hp,
    exec_of_idle_of_encode (by decide) hp, exec_of_idle_of_encode (by decide) hp⟩

/-- Settles O18: the words of the three addressed commands (decisions D8, D10). -/
theorem addressedCommandsStart : Obligations.AddressedCommandsStart := fun _ a hp =>
  ⟨fun d => exec_of_idle_of_encode (encode_writeShort a d) hp, exec_of_idle_of_encode (encode_readShort a) hp,
    exec_of_idle_of_encode (encode_eraseShort a) hp⟩

end Sys2Proof.Machine
end

section
/-! PROOFS. The rule of each phase as a whole step (R104 to R116). -/

namespace Sys2Proof.Machine

/-- In a known busy phase a step without reset is what that phase's rule makes of the state. -/
theorem step_of_phase {s t : State} {p : Phase} (hrst : s.port.rst = 0#1) (hp : s.ph = p) (hbusy : p ≠ .idle)
    (hexit : phaseExit { s with ph := p } = t) : step s = .next (advanceHost t) := by
  subst hp hexit
  exact step_of_busy (bit_ne_one_iff.mpr hrst) hbusy

theorem withPhase_self {s : State} {p : Phase} (hp : s.ph = p) : { s with ph := p } = s := by rw [← hp]

/-- Taking a sample changes nothing but the answers to come, and these move up by one (R32). -/
theorem sampled_takes_one_answer (s : State) :
    (∀ k, s.sampled.answer k = s.answer (k + 1)) ∧ { s.sampled with answers := s.answers, draws := s.draws } = s :=
  ⟨sampled_answer s, by rw [sampled_eq]⟩

/-! ## Select and poll -/

/-- Settles O23: leaving `SETTLE`, `POLL_SEL` and `POLL_HI` (R104 to R106; decision D12, log 2). -/
theorem selectAndPollPulse : Obligations.SelectAndPollPulse := fun _ hrst =>
  ⟨fun hp => step_of_phase hrst hp Phase.noConfusion rfl, fun hp => step_of_phase hrst hp Phase.noConfusion rfl,
    fun hp => step_of_phase hrst hp Phase.noConfusion rfl⟩

/-- Settles O24: the ready and the busy sample of answer 0 (R107, R108; log 2, log 3). -/
theorem statusSample : Obligations.StatusSample := by
  intro s hrst hp
  obtain ⟨hanswers, hrest⟩ := sampled_takes_one_answer s
  refine ⟨s.sampled, hanswers, hrest, ?_⟩
  rw [step_of_phase hrst hp Phase.noConfusion (congrArg exitPollSample (withPhase_self hp)), ← sample_eq_answer]
  constructor
  · intro hready
    simp [exitPollSample_of_ready hready, pollReady, emit]
  · intro hbusy
    simp [exitPollSample_of_busy hbusy, pollBusy, emit]

/-- Settles O25: the budget left or used up (R109; log 2). -/
theorem backoffRetriesOrTimesOut : Obligations.BackoffRetriesOrTimesOut := fun _ hrst hp =>
  ⟨fun hleft => step_of_phase hrst hp Phase.noConfusion (exitPollBackoff_of_lt hleft),
    fun hused => step_of_phase hrst hp Phase.noConfusion (exitPollBackoff_of_exhausted hused.ge.not_gt)⟩

/-! ## Pulses -/

/-- Up to the word's width the pulse counter does not wrap, so its limits can be read off the old count. -/
theorem bitCnt_add_one_lt_iff {n : BitVec 6} {limit : Nat} (h : n.toNat ≤ 32) :
    (n + 1#6).toNat < limit ↔ n.toNat + 1 < limit := by
  have hcount : (n + 1#6).toNat = n.toNat + 1 := by bv_omega
  rw [hcount]

/-- Settles O26: the rise, and the three falls (R110, R111; decision D28, log 2). -/
theorem transmitPulse : Obligations.TransmitPulse := by
  intro s hrst
  refine ⟨fun hp => step_of_phase hrst hp Phase.noConfusion rfl,
    fun hp hcount => step_of_phase hrst hp Phase.noConfusion ?_,
    fun hp hcount hwr => step_of_phase hrst hp Phase.noConfusion ?_,
    fun hp hcount hwr => step_of_phase hrst hp Phase.noConfusion ?_⟩
  · have hmore : (s.bitCnt + 1#6).toNat < Config.txWidth := (bitCnt_add_one_lt_iff (by omega)).mpr hcount
    exact (exitTxHi_of_more hmore).trans (by rw [List.append_assoc]; rfl)
  · have hlast : ¬ (s.bitCnt + 1#6).toNat < Config.txWidth := (bitCnt_add_one_lt_iff (by omega)).not.mpr hcount.not_lt
    exact (exitTxHi_of_read hlast hwr).trans (by rw [List.append_assoc]; rfl)
  · have hlast : ¬ (s.bitCnt + 1#6).toNat < Config.txWidth := (bitCnt_add_one_lt_iff (by omega)).not.mpr hcount.not_lt
    exact exitTxHi_of_done hlast (bit_ne_one_iff.mpr hwr)

/-- `RX` moves up by one bit, its bit 15 lost, the sample below (R24). -/
theorem shiftIn_eq_append (rx : Data) (b : Bit) : shiftIn rx b = rx.extractLsb' 0 15 ++ b := by
  refine BitVec.eq_of_getLsbD_eq fun i hi => ?_
  rw [BitVec.getLsbD_append]
  cases i with
  | zero => exact shiftIn_getLsbD_zero rx b
  | succ i => simp [shiftIn_getLsbD_succ rx b hi, Nat.lt_of_succ_lt_succ hi]

/-- Settles O27: the sample with the rise, and the two falls (R112, R113; decision D12, log 2, log 3). -/
theorem receivePulse : Obligations.ReceivePulse := by
  intro s hrst
  refine ⟨fun hp => ?_, fun hp hcount => step_of_phase hrst hp Phase.noConfusion ?_,
    fun hp hcount hbound => step_of_phase hrst hp Phase.noConfusion ?_⟩
  · obtain ⟨hanswers, hrest⟩ := sampled_takes_one_answer s
    refine ⟨s.sampled, hanswers, hrest, ?_⟩
    rw [step_of_phase hrst hp Phase.noConfusion (congrArg exitRxSetup (withPhase_self hp)), exitRxSetup_eq,
      shiftIn_eq_append, sample_eq_answer]
  · have hmore : (s.bitCnt + 1#6).toNat < Config.rxBits := (bitCnt_add_one_lt_iff (by omega)).mpr hcount
    exact exitRxHi_of_more hmore
  · have hlast : ¬ (s.bitCnt + 1#6).toNat < Config.rxBits := (bitCnt_add_one_lt_iff hbound).not.mpr hcount.not_gt
    exact exitRxHi_of_done hlast

/-! ## Deselect -/

/-- Settles O28: the deselect, and the end with and without a read (R115, R116; log 2). -/
theorem deselectAndSucceed : Obligations.DeselectAndSucceed := by
  intro s hrst
  refine ⟨fun hp => step_of_phase hrst hp Phase.noConfusion rfl,
    fun hp hwr => step_of_phase hrst hp Phase.noConfusion ((exitCsOff_eq _).trans ?_),
    fun hp hwr => step_of_phase hrst hp Phase.noConfusion ((exitCsOff_eq _).trans ?_)⟩
  · simp [hwr]
  · simp [hwr]

end Sys2Proof.Machine
end

section
/-! PROOFS. One edge in every phase: when it stops, when a start counts, and where it leads (R100, R101, R114). -/

namespace Sys2Proof.Machine

/-! ## The engine is never stuck -/

theorem decodePort_of_kind_ne_seven {c : PortCommand} (h : c.kind ≠ 7#3) : ∃ i, decodePort c = .command i := by
  rcases Nat.lt_or_ge 3 c.kind.toNat with haddressed | hselector
  · have hbelow : c.kind.toNat ≤ 6 := by bv_omega
    obtain ⟨i, hi, -⟩ := decodePort_of_addressed haddressed hbelow c.addr c.data
    exact ⟨i, hi⟩
  · obtain ⟨i, hi, -⟩ := decodePort_of_selector hselector c.addr c.data
    exact ⟨i, hi⟩

/-- Unless an idle engine finds the reserved kind, a step goes on. -/
theorem exists_step_of_not_reserved {s : State} (hrst : s.port.rst = 0#1)
    (h : ¬ (s.ph = .idle ∧ s.port.start = 1#1 ∧ s.port.command.kind = 7#3)) : ∃ t, step s = .next t := by
  by_cases hp : s.ph = .idle
  · by_cases hs : s.port.start = 1#1
    · obtain ⟨i, hi⟩ := decodePort_of_kind_ne_seven fun hkind => h ⟨hp, hs, hkind⟩
      exact ⟨_, step_of_accepts ⟨hp, hrst, hs, hi⟩⟩
    · exact ⟨_, step_of_quiet (bit_ne_one_iff.mpr hrst) hs hp⟩
  · exact ⟨_, step_of_busy (bit_ne_one_iff.mpr hrst) hp⟩

/-- Settles O13: a reset edge goes on, and without reset only the reserved kind in `IDLE` stops a step (decisions D1, D4). -/
theorem stepStopsOnlyOnReservedKind : Obligations.StepStopsOnlyOnReservedKind := by
  intro s
  by_cases hr : s.port.rst = 1#1
  · exact .inl ⟨_, step_of_reset hr⟩
  have hrst : s.port.rst = 0#1 := bit_ne_one_iff.mp hr
  by_cases hreserved : s.ph = .idle ∧ s.port.start = 1#1 ∧ s.port.command.kind = 7#3
  · obtain ⟨hp, hs, hkind⟩ := hreserved
    have hstop : step s = .refused .reservedKind := step_of_rejected hp hr hs (decodePort_of_reserved hkind)
    exact .inr ⟨hstop, hp, hrst, hs, hkind, fun hduty => (hduty hs).2 hkind⟩
  · exact .inl (exists_step_of_not_reserved hrst hreserved)

/-! ## A start counts in `IDLE` only -/

/-- A busy edge does the same for every command on the port (R114). -/
theorem exec_of_busy (i : Instr) {s : State} (hp : s.ph ≠ .idle) : exec i s = .next (phaseExit s) :=
  (exec_eq_presentWord i s).trans (congrArg Host.Outcome.next (presentWord_of_busy hp))

theorem step_withPort_of_busy {s : State} (p : HostPort) (hp : s.ph ≠ .idle) (hrst : p.rst = 0#1) :
    step { s with port := p } = .next (advanceHost { phaseExit s with port := p }) := by
  have hkeeps : phaseExit s = (phaseExit s).withHost s.port s.upcoming s.waitCnt := phaseExit_withHost ..
  have hother : phaseExit { s with port := p } = { phaseExit s with port := p } := by
    rw [hkeeps]
    exact phaseExit_withHost p s.upcoming s.waitCnt
  rw [step_of_busy (s := { s with port := p }) (bit_ne_one_iff.mpr hrst) hp, hother]

/-- The next edge's signals apart, an edge moves on the same whatever the signals were. -/
theorem advanceHost_withPort (s : State) (p : HostPort) :
    { advanceHost { s with port := p } with port := (advanceHost s).port } = advanceHost s := by
  simp only [advanceHost]
  split <;> rfl

/-- Settles O11: idle without a start, and a busy edge under any command and any signals short of reset (decision D5;
log 2). -/
theorem startOnlyCountsInIdle : Obligations.StartOnlyCountsInIdle := by
  refine ⟨fun s hp hrst hs => step_of_quiet (bit_ne_one_iff.mpr hrst) (bit_ne_one_iff.mpr hs) hp,
    fun s i j hp => (exec_of_busy i hp).trans (exec_of_busy j hp).symm, fun s p hp hrst hrst' => ?_⟩
  exact ⟨_, _, step_of_busy (bit_ne_one_iff.mpr hrst) hp, step_withPort_of_busy p hp hrst', advanceHost_withPort _ p⟩

/-! ## The table of phase transitions -/

theorem eq_advanceHost_of_step {s t u : State} (h : step s = .next t) (h' : step s = .next (advanceHost u)) :
    t = advanceHost u := Host.Outcome.next.inj (h.symm.trans h')

theorem ph_of_step {s t u : State} (h : step s = .next t) (h' : step s = .next (advanceHost u)) : t.ph = u.ph :=
  eq_advanceHost_of_step h h' ▸ advanceHost_ph u

theorem ph_of_step_of_start {s t : State} (h : step s = .next t) (hrst : s.port.rst = 0#1) (hp : s.ph = .idle)
    (hs : s.port.start = 1#1) : t.ph = .settle := by
  obtain ⟨hr, -⟩ | ⟨-, -, -, i, -, rfl⟩ | ⟨-, -, hs', -⟩ | ⟨-, hp', -⟩ := step_next_cases h
  · exact absurd hr (bit_ne_one_iff.mpr hrst)
  · exact advanceHost_ph (acceptedStart (encode i) s)
  · exact absurd hs hs'
  · exact absurd hp hp'

/-- Settles O22: row by row, the phase of the whole next state the phase's rule gives (R100; rules R103 to R116). -/
theorem phaseTransitionTable : Obligations.PhaseTransitionTable := by
  intro s hrst hreserved
  obtain ⟨t, ht⟩ := exists_step_of_not_reserved hrst hreserved
  obtain ⟨hsettle, hpollSel, hpollHi⟩ := selectAndPollPulse s hrst
  obtain ⟨htxSetup, htxMore, htxRead, htxDone⟩ := transmitPulse s hrst
  obtain ⟨hrxSetup, hrxMore, hrxDone⟩ := receivePulse s hrst
  obtain ⟨hcsHold, hcsOffRead, hcsOff⟩ := deselectAndSucceed s hrst
  refine ⟨t, ht, fun hp hs => ph_of_step_of_start ht hrst hp hs,
    fun hp hs => (ph_of_step ht (step_of_quiet (bit_ne_one_iff.mpr hrst) (bit_ne_one_iff.mpr hs) hp)).trans hp,
    fun hp => ph_of_step ht (hsettle hp), fun hp => ph_of_step ht (hpollSel hp), fun hp => ph_of_step ht (hpollHi hp),
    fun hp hready => ?_, fun hp hbusy => ?_, fun hp hleft => ?_, fun hp hused => ?_,
    fun hp => ph_of_step ht (htxSetup hp), fun hp hmore => ph_of_step ht (htxMore hp hmore),
    fun hp hlast hwr => ph_of_step ht (htxRead hp hlast hwr), fun hp hlast hwr => ph_of_step ht (htxDone hp hlast hwr),
    fun hp => ?_, fun hp hmore => ph_of_step ht (hrxMore hp hmore),
    fun hp hlast => ph_of_step ht (hrxDone hp hlast.ge (by omega)), fun hp => ph_of_step ht (hcsHold hp), fun hp => ?_⟩
  · obtain ⟨u, -, -, hstep, -⟩ := statusSample s hrst hp
    exact ph_of_step ht (hstep hready)
  · obtain ⟨u, -, -, -, hstep⟩ := statusSample s hrst hp
    exact ph_of_step ht (hstep hbusy)
  · exact ph_of_step ht ((backoffRetriesOrTimesOut s hrst hp).1 hleft)
  · obtain rfl := eq_advanceHost_of_step ht ((backoffRetriesOrTimesOut s hrst hp).2 hused)
    exact ⟨advanceHost_ph _, advanceHost_timeout _⟩
  · obtain ⟨u, -, -, hstep⟩ := hrxSetup hp
    exact ph_of_step ht hstep
  · by_cases hwr : s.wr = 1#1
    · exact ph_of_step ht (hcsOffRead hp hwr)
    · exact ph_of_step ht (hcsOff hp (bit_ne_one_iff.mp hwr))

end Sys2Proof.Machine
end

section
/-! PROOFS. The counts of a transaction's trace, part by part (R118). -/

namespace Sys2Proof.Machine

/-- The counts of R118, in its order: selects, clock pulses, samples, writes of `DOUT`. -/
def pinCounts (es : List PinEvent) : Nat × Nat × Nat × Nat := (selects es, clockPulses es, dinSamples es, doutWrites es)

theorem pinCounts_append (es fs : List PinEvent) : pinCounts (es ++ fs) = pinCounts es + pinCounts fs := by
  simp [pinCounts, selects, clockPulses, dinSamples, doutWrites, List.countP_append]

/-- Groups of events with the same counts. -/
theorem pinCounts_flatMap {α : Type} {f : α → List PinEvent} {c : Nat × Nat × Nat × Nat} (h : ∀ a, pinCounts (f a) = c)
    (as : List α) : pinCounts (as.flatMap f) = as.length • c := by
  induction as with
  | nil => exact (zero_nsmul c).symm
  | cons a as ih => rw [List.flatMap_cons, pinCounts_append, h, ih, List.length_cons, succ_nsmul']

/-! ## The parts of a transaction -/

theorem pinCounts_start : pinCounts [.dout 0#1, .sk 0#1, .dwell .tSettle] = (0, 0, 0, 1) := rfl

theorem pinCounts_end : pinCounts [.dwell .tCsh, .cs 0#1, .dwell .tCsl] = (0, 0, 0, 0) := rfl

theorem pinCounts_pollEvents (p : Bit) : pinCounts (pollEvents p) = (1, 1, 1, 0) := rfl

theorem pinCounts_busyTrace (answers : Nat → Bit) (b : Nat) : pinCounts (busyTrace answers b) = (b, b, b, 0) := by
  have h := pinCounts_flatMap (f := fun k => busyEvents (answers k)) (c := (1, 1, 1, 0)) (fun _ => rfl) (List.range b)
  rw [List.length_range] at h
  exact h.trans (by simp)

theorem pinCounts_sendTrace (w : TxWord) : pinCounts (sendTrace w) = (0, 32, 0, 32) := by
  have h := pinCounts_flatMap (f := sendEvents) (c := (0, 1, 0, 1)) (fun _ => rfl) (wireBits w)
  rwa [length_wireBits] at h

theorem pinCounts_receiveTrace (r : Nat → Bit) : pinCounts (receiveTrace r) = (0, 17, 17, 1) := by
  have h := pinCounts_flatMap (f := fun j => receiveEvents (r j)) (c := (0, 1, 1, 0)) (fun _ => rfl)
    (List.range Config.rxBits)
  rw [List.length_range] at h
  exact (pinCounts_append [.dout 0#1] _).trans (congrArg ((0, 0, 0, 1) + ·) h)

/-- The read phase, if there is one. -/
theorem pinCounts_readPhase (wr : Bit) (r : Nat → Bit) :
    pinCounts (if wr = 1#1 then receiveTrace r else []) = if wr = 1#1 then (0, 17, 17, 1) else (0, 0, 0, 0) := by
  split
  · exact pinCounts_receiveTrace r
  · rfl

/-! ## The whole transaction -/

section
variable (t : Transaction) {answers : Nat → Bit}

theorem pinCounts_transact_of_timeout (h : busyBefore answers = none) :
    pinCounts (transact t answers).trace = (111, 111, 111, 1) := by
  simp only [transact, h, pinCounts_append, pinCounts_start, pinCounts_busyTrace]
  rfl

theorem pinCounts_transact_of_ready {b : Nat} (h : busyBefore answers = some b) :
    pinCounts (transact t answers).trace =
      (b + 1, b + 1 + 32, b + 1, 33) + if t.wantsRead = 1#1 then (0, 17, 17, 1) else (0, 0, 0, 0) := by
  simp only [transact, h, pinCounts_append, pinCounts_start, pinCounts_busyTrace, pinCounts_pollEvents,
    pinCounts_sendTrace, pinCounts_readPhase, pinCounts_end]
  split <;> simp

end

/-- Settles O45: the counts of each part, added up, with at most 110 busy iterations before a ready answer (R118). -/
theorem transactionCounts : Obligations.TransactionCounts := by
  intro w wr answers
  have hbudget : ∀ {b : Nat}, busyBefore answers = some b → b ≤ 110 := fun h => Nat.le_of_lt_succ (busyBefore_eq_some h).1
  refine ⟨fun h => ?_, fun b h hwr => ⟨hbudget h, ?_⟩, fun b h hwr => ⟨hbudget h, ?_⟩⟩
  · simpa [pinCounts] using pinCounts_transact_of_timeout ⟨w, wr⟩ h
  · simpa [pinCounts, hwr] using pinCounts_transact_of_ready ⟨w, wr⟩ h
  · simpa [pinCounts, hwr] using pinCounts_transact_of_ready ⟨w, wr⟩ h

end Sys2Proof.Machine
end

section
/-! PROOFS. The transaction as a whole: the step machine ends as the big-step function says, in success and in `DeviceTimeout`
(R109, R117, R190). -/

namespace Sys2Proof.Machine

/-! ## The failing run -/

/-- The end of a transaction whose every answer within the budget was busy; `s` is the state in `SETTLE`. -/
def timedOut (s : State) : State :=
  State.afterSamples
    { s with
      cs := 0#1, sk := 0#1, retry := BitVec.ofNat 7 Config.retryBudget, timeout := 1#1, done := 1#1, ph := .idle,
      trace := pollTrace s Config.retryBudget }
    Config.retryBudget

/-- R108: a busy sample deselects the device and counts the iteration. -/
theorem phaseExit_pollPulsed_of_busy {s : State} {b : Nat} (hbusy : s.answer b ≠ Config.readyLevel) :
    phaseExit ((pollPulsed s b).afterSamples b) = pollBusy (s.answer b) ((pollPulsed s b).afterSamples (b + 1)) := by
  have hsample : ((pollPulsed s b).afterSamples b).sample = s.answer b := afterSamples_sample ..
  rw [← afterSamples_sampled, ← hsample]
  exact exitPollSample_of_busy (hsample ▸ hbusy)

/-- R109: the last busy sample of the budget ends the transaction. -/
theorem pollPulsed_run_of_exhausted {s : State} {b : Nat} (hb : b + 1 = Config.retryBudget)
    (hbusy : s.answer b ≠ Config.readyLevel) : BusyRun 2 ((pollPulsed s b).afterSamples b) (timedOut s) := by
  have hcount : BitVec.ofNat 7 b + 1#7 = BitVec.ofNat 7 (b + 1) := (BitVec.ofNat_add b 1).symm
  have hused : ¬ (BitVec.ofNat 7 b + 1#7).toNat < Config.retryBudget := by rw [hcount, hb]; decide
  refine .step Phase.noConfusion (phaseExit_pollPulsed_of_busy hbusy)
    (.step Phase.noConfusion ((exitPollBackoff_of_exhausted hused).trans ?_) (.refl _))
  rw [timedOut, ← hb]
  simp [pollBusy, pollPulsed, State.afterSamples, emit, pollTrace, busyTrace_succ, busyEvents, pollEvents, hcount]

/-- From `SETTLE` to the failure: 111 busy iterations. -/
theorem timeout_run {s : State} (hp : s.ph = .settle) (hsk : s.sk = 0#1) (hretry : s.retry = 0#7)
    (hbusy : ∀ k < 111, s.answer k ≠ Config.readyLevel) : BusyRun 445 s (timedOut s) := by
  have hpolls := (settle_run hp hsk hretry).trans
    (polling_run_of_all_busy (b := 110) (by decide) fun k hk => hbusy k (Nat.lt_succ_of_lt hk))
  exact hpolls.trans ((polling_run s 110).trans (pollPulsed_run_of_exhausted rfl (hbusy 110 (by decide))))

theorem busyBefore_eq_none_iff {answers : Nat → Bit} :
    busyBefore answers = none ↔ ∀ k < 111, answers k ≠ Config.readyLevel := by
  simp [busyBefore, Config.retryBudget]

/-! ## The big-step function, case by case -/

section
variable {w : TxWord} {s : State} {b : Nat}

theorem transactionFrom_of_timeout (hb : busyBefore s.answer = none) :
    transactionFrom w s =
      { timedOut := true, busy := 111, value := none
        trace := [.dout 0#1, .sk 0#1, .dwell .tSettle] ++ busyTrace s.answer 111
        samples := 111, steps := 445 } := by
  simp [transactionFrom, transact, hb, Config.retryBudget]

theorem transactionFrom_of_ready_without_read (hb : busyBefore s.answer = some b) (hwr : s.port.wantsRead ≠ 1#1) :
    transactionFrom w s =
      { timedOut := false, busy := b, value := none
        trace := [.dout 0#1, .sk 0#1, .dwell .tSettle] ++ busyTrace s.answer b ++ pollEvents (s.answer b) ++ sendTrace w ++
          [.dwell .tCsh, .cs 0#1, .dwell .tCsl]
        samples := b + 1, steps := 70 + 4 * b } := by
  simp [transactionFrom, transact, hb, hwr]

theorem transactionFrom_of_ready_with_read (hb : busyBefore s.answer = some b) (hwr : s.port.wantsRead = 1#1) :
    transactionFrom w s =
      { timedOut := false, busy := b, value := some (readValue fun j => s.answer (b + 1 + j))
        trace := [.dout 0#1, .sk 0#1, .dwell .tSettle] ++ busyTrace s.answer b ++ pollEvents (s.answer b) ++ sendTrace w ++
          receiveTrace (fun j => s.answer (b + 1 + j)) ++ [.dwell .tCsh, .cs 0#1, .dwell .tCsl]
        samples := b + 1 + 17, steps := 104 + 4 * b } := by
  simp [transactionFrom, transact, hb, hwr, Config.rxBits]

/-! ## The ends of the runs are the ends it says -/

/-- The count of busy iterations fits `RETRY`. -/
theorem toNat_ofNat_busy (hb : busyBefore s.answer = some b) : (BitVec.ofNat 7 b).toNat = b := by
  have hbudget : b < 111 := (busyBefore_eq_some hb).1
  exact Nat.mod_eq_of_lt (hbudget.trans (by decide))

theorem pollTrace_acceptedStart (w : TxWord) (s : State) (b : Nat) :
    pollTrace (acceptedStart w s) b = s.trace ++ ([.dout 0#1, .sk 0#1, .dwell .tSettle] ++ busyTrace s.answer b) := by
  rw [pollTrace, acceptedStart_eq, List.append_assoc, List.append_assoc]
  rfl

theorem sent_trace (w : TxWord) (s : State) (b : Nat) :
    (sent (pollSampled (acceptedStart w s) b)).trace =
      s.trace ++ ([.dout 0#1, .sk 0#1, .dwell .tSettle] ++ busyTrace s.answer b ++ pollEvents (s.answer b) ++
        sendTrace w) := by
  change pollTrace (acceptedStart w s) b ++ pollEvents (s.answer b) ++ sendTrace w = _
  simp only [pollTrace_acceptedStart, List.append_assoc]

theorem reading_trace (s : State) : (reading s Config.rxBits).trace = s.trace ++ receiveTrace s.answer := rfl

theorem finished_trace (s : State) : (finished s).trace = s.trace ++ [.dwell .tCsh, .cs 0#1, .dwell .tCsl] :=
  List.append_assoc ..

theorem timedOut_endsAs (hb : busyBefore s.answer = none) :
    EndsAs s (timedOut (acceptedStart w s)) (transactionFrom w s) := by
  rw [transactionFrom_of_timeout hb]
  exact {
    ph := rfl, cs := rfl, sk := rfl, retry := rfl, resultValid := rfl, result := rfl
    status := transactResult_of_timeout rfl rfl
    trace := pollTrace_acceptedStart w s 111
    answers := afterSamples_answer (acceptedStart w s) 111 }

theorem transactResult_finished_of_no_read {s : State} (hwr : s.wr ≠ 1#1) (ht : s.timeout = 0#1)
    (hv : s.resultValid = 0#1) : (finished s).transactResult = .success none := by
  have hdone : (finished s).done = 1#1 := rfl
  have hvalid : (finished s).resultValid = 0#1 := (if_neg hwr).trans hv
  simp [transactResult_of_success hdone ht, hvalid]

theorem finished_sent_endsAs (hb : busyBefore s.answer = some b) (hwr : s.port.wantsRead ≠ 1#1) :
    EndsAs s (finished (sent (pollSampled (acceptedStart w s) b))) (transactionFrom w s) := by
  rw [transactionFrom_of_ready_without_read hb hwr]
  exact {
    ph := rfl, cs := rfl, sk := rfl
    retry := toNat_ofNat_busy hb
    resultValid := if_neg hwr
    result := if_neg hwr
    status := transactResult_finished_of_no_read hwr rfl rfl
    trace := by rw [finished_trace, sent_trace, List.append_assoc]
    answers := afterSamples_answer (acceptedStart w s) (b + 1) }

theorem finished_reading_endsAs (hb : busyBefore s.answer = some b) (hwr : s.port.wantsRead = 1#1) :
    EndsAs s (finished (reading (sent (pollSampled (acceptedStart w s) b)) Config.rxBits)) (transactionFrom w s) := by
  have hanswers : (sent (pollSampled (acceptedStart w s) b)).answer = fun k => s.answer (b + 1 + k) :=
    funext (sent_pollSampled_answer (acceptedStart w s) b)
  have hread : (reading (sent (pollSampled (acceptedStart w s) b)) Config.rxBits).rx =
      readValue fun k => s.answer (b + 1 + k) := hanswers ▸ reading_rx _
  rw [transactionFrom_of_ready_with_read hb hwr]
  exact {
    ph := rfl, cs := rfl, sk := rfl
    retry := toNat_ofNat_busy hb
    resultValid := if_pos hwr
    result := (if_pos hwr).trans hread
    status := hread ▸ transactResult_finished_of_read hwr rfl
    trace := by simp only [finished_trace, reading_trace, hanswers, sent_trace, List.append_assoc]
    answers := fun k => by
      rw [Nat.add_assoc]
      exact (afterSamples_answer _ Config.rxBits k).trans (congrFun hanswers (17 + k)) }

/-- The start's word runs to the end the big-step function gives, in the steps it counts (R117). -/
theorem transaction_run (w : TxWord) (s : State) :
    ∃ t, BusyRun (transactionFrom w s).steps (acceptedStart w s) t ∧ EndsAs s t (transactionFrom w s) := by
  cases hb : busyBefore s.answer with
  | none =>
    refine ⟨_, ?_, timedOut_endsAs hb⟩
    rw [transactionFrom_of_timeout hb]
    exact timeout_run rfl rfl rfl (busyBefore_eq_none_iff.mp hb)
  | some b =>
    by_cases hwr : s.port.wantsRead = 1#1
    · refine ⟨_, ?_, finished_reading_endsAs hb hwr⟩
      rw [transactionFrom_of_ready_with_read hb hwr]
      exact transaction_run_with_read rfl rfl rfl hb hwr
    · refine ⟨_, ?_, finished_sent_endsAs hb hwr⟩
      rw [transactionFrom_of_ready_without_read hb hwr]
      exact transaction_run_without_read rfl rfl rfl hb hwr

end

/-! ## Steps of the machine -/

/-- How a transaction ended does not show the host's later signals. -/
theorem EndsAs.withHost {s t : State} {r : TransactionEnd} (h : EndsAs s t r) (p : HostPort) (ps : List HostPort) (n : Nat) :
    EndsAs s (t.withHost p ps n) r :=
  { h with status := h.status, answers := h.answers }

/-- A busy run is busy before its last step. -/
theorem BusyRun.busy_before {n : Nat} {s t : State} (h : BusyRun n s t) {k : Nat} (hk : k < n) :
    ∃ u, BusyRun k s u ∧ u.ph ≠ .idle := by
  induction h generalizing k with
  | refl s => exact absurd hk k.not_lt_zero
  | @step n s t u hp hexit _ ih =>
    cases k with
    | zero => exact ⟨s, .refl s, hp⟩
    | succ k =>
      obtain ⟨v, hrun, hbusy⟩ := ih (Nat.lt_of_succ_lt_succ hk)
      exact ⟨v, .step hp hexit hrun, hbusy⟩

/-- Settles O42: the accepted start and the run of its word, busy until its last step (R117, the spec's own inference). -/
theorem transactionEqualsBigStep : Obligations.TransactionEqualsBigStep := by
  intro s i ha hr
  obtain ⟨t, hrun, hends⟩ := transaction_run (encode i) s
  refine ⟨?_, fun k hk hsteps => ?_⟩
  · obtain ⟨p, ps, hend⟩ := runSteps_of_accepts ha hr hrun
    exact ⟨_, hend, hends.withHost p ps s.waitCnt⟩
  · obtain ⟨j, rfl⟩ := Nat.exists_eq_add_of_le hk
    obtain ⟨u, hpart, hbusy⟩ := hrun.busy_before (k := j) (by omega)
    obtain ⟨p, ps, hmid⟩ := runSteps_of_accepts ha hr hpart
    exact ⟨_, hmid, hbusy⟩

/-- Settles O31: 111 busy answers are a run to the failure with nothing sent (R109, R190). -/
theorem neverReadyTimesOut : Obligations.NeverReadyTimesOut := by
  intro s i ha hr hbusy
  have hb : busyBefore s.answer = none := busyBefore_eq_none_iff.mpr hbusy
  obtain ⟨p, ps, hend⟩ := runSteps_of_accepts ha hr
    (timeout_run (s := acceptedStart (encode i) s) rfl rfl rfl hbusy)
  have hends := (timedOut_endsAs (w := encode i) hb).withHost p ps s.waitCnt
  have hcounts := congrArg pinCounts hends.trace
  rw [pinCounts_append, transactionFrom, pinCounts_transact_of_timeout _ hb] at hcounts
  simp only [pinCounts, Prod.mk_add_mk, Prod.mk.injEq] at hcounts
  obtain ⟨hselects, -, hsamples, hwrites⟩ := hcounts
  exact ⟨_, hend, rfl, transactResult_of_timeout rfl rfl, rfl, rfl, rfl, rfl, rfl, rfl, rfl, hselects, hsamples, hwrites⟩

end Sys2Proof.Machine
end

section
/-! PROOFS. Every transaction ends: a bound on the steps left that every phase exit lowers (R100). -/

namespace Sys2Proof.Machine

/-- No more steps than this are left until `IDLE`: 100 once a sample was ready, and four for each poll iteration before. -/
def stepsLeft (s : State) : Nat :=
  match s.ph with
  | .idle => 0
  | .settle => 544
  | .pollSel => 4 * (111 - s.retry.toNat) + 99
  | .pollHi => 4 * (111 - s.retry.toNat) + 98
  | .pollSample => 4 * (111 - s.retry.toNat) + 97
  | .pollBackoff => 4 * (111 - s.retry.toNat) + 100
  | .txSetup => 2 * (32 - s.bitCnt.toNat) + 36
  | .txHi => 2 * (32 - s.bitCnt.toNat) + 35
  | .rxSetup => 2 * (17 - s.bitCnt.toNat) + 2
  | .rxHi => 2 * (17 - s.bitCnt.toNat) + 1
  | .csHold => 2
  | .csOff => 1

theorem stepsLeft_le {s : State} : stepsLeft s ≤ 544 := by
  unfold stepsLeft
  split <;> omega

theorem stepsLeft_exitPollSample_lt {s : State} (hp : s.ph = .pollSample) (hlt : s.retry.toNat < 111) :
    stepsLeft (exitPollSample s) < stepsLeft s := by
  have hhere : stepsLeft s = 4 * (111 - s.retry.toNat) + 97 := by simp only [stepsLeft, hp]
  by_cases hready : s.sample = Config.readyLevel
  · have hnext : stepsLeft (exitPollSample s) = 100 := by rw [exitPollSample_of_ready hready]; rfl
    omega
  · have hcount : (s.retry + 1#7).toNat = s.retry.toNat + 1 := retry_add_one_toNat hlt
    have hnext : stepsLeft (exitPollSample s) = 4 * (111 - (s.retry + 1#7).toNat) + 100 := by
      rw [exitPollSample_of_busy hready, sampled_eq]; rfl
    omega

theorem stepsLeft_exitPollBackoff_lt {s : State} (hp : s.ph = .pollBackoff) :
    stepsLeft (exitPollBackoff s) < stepsLeft s := by
  have hhere : stepsLeft s = 4 * (111 - s.retry.toNat) + 100 := by simp only [stepsLeft, hp]
  by_cases hlt : s.retry.toNat < Config.retryBudget
  · have hnext : stepsLeft (exitPollBackoff s) = 4 * (111 - s.retry.toNat) + 99 := by rw [exitPollBackoff_of_lt hlt]; rfl
    omega
  · have hnext : stepsLeft (exitPollBackoff s) = 0 := by rw [exitPollBackoff_of_exhausted hlt]; rfl
    omega

theorem stepsLeft_exitTxHi_lt {s : State} (hp : s.ph = .txHi) (hlt : s.bitCnt.toNat < 32) :
    stepsLeft (exitTxHi s) < stepsLeft s := by
  have hhere : stepsLeft s = 2 * (32 - s.bitCnt.toNat) + 35 := by simp only [stepsLeft, hp]
  have hcount : (s.bitCnt + 1#6).toNat = s.bitCnt.toNat + 1 := bitCnt_add_one_toNat hlt
  by_cases hmore : (s.bitCnt + 1#6).toNat < Config.txWidth
  · have hnext : stepsLeft (exitTxHi s) = 2 * (32 - (s.bitCnt + 1#6).toNat) + 36 := by rw [exitTxHi_of_more hmore]; rfl
    omega
  by_cases hwr : s.wr = 1#1
  · have hnext : stepsLeft (exitTxHi s) = 36 := by rw [exitTxHi_of_read hmore hwr]; rfl
    omega
  · have hnext : stepsLeft (exitTxHi s) = 2 := by rw [exitTxHi_of_done hmore hwr]; rfl
    omega

theorem stepsLeft_exitRxHi_lt {s : State} (hp : s.ph = .rxHi) (hlt : s.bitCnt.toNat < 17) :
    stepsLeft (exitRxHi s) < stepsLeft s := by
  have hhere : stepsLeft s = 2 * (17 - s.bitCnt.toNat) + 1 := by simp only [stepsLeft, hp]
  have hcount : (s.bitCnt + 1#6).toNat = s.bitCnt.toNat + 1 := bitCnt_add_one_toNat (hlt.trans (by decide))
  by_cases hmore : (s.bitCnt + 1#6).toNat < Config.rxBits
  · have hnext : stepsLeft (exitRxHi s) = 2 * (17 - (s.bitCnt + 1#6).toNat) + 2 := by rw [exitRxHi_of_more hmore]; rfl
    omega
  · have hnext : stepsLeft (exitRxHi s) = 2 := by rw [exitRxHi_of_done hmore]; rfl
    omega

/-- A phase exit lowers the bound, as long as each counter is below its limit in the phases that count it. -/
theorem stepsLeft_phaseExit_lt {s : State} (h : countersInPhase s) (hp : s.ph ≠ .idle) :
    stepsLeft (phaseExit s) < stepsLeft s := by
  obtain ⟨hretry, htx, hrx, hsettle⟩ := h
  cases hph : s.ph <;> simp only [phaseExit, hph]
  case idle => exact absurd hph hp
  case settle => simp [stepsLeft, exitSettle_eq, hph, hsettle hph]
  case pollSel => simp [stepsLeft, exitPollSel_eq, hph]
  case pollHi => simp [stepsLeft, exitPollHi_eq, hph]
  case pollSample => exact stepsLeft_exitPollSample_lt hph (hretry (.inr (.inr hph)))
  case pollBackoff => exact stepsLeft_exitPollBackoff_lt hph
  case txSetup => simp [stepsLeft, exitTxSetup_eq, hph]
  case txHi => exact stepsLeft_exitTxHi_lt hph (htx (.inr hph))
  case rxSetup => simp [stepsLeft, exitRxSetup_eq, hph]
  case rxHi => exact stepsLeft_exitRxHi_lt hph (hrx (.inr hph))
  case csHold => simp [stepsLeft, exitCsHold_eq, hph]
  case csOff => simp [stepsLeft, exitCsOff_eq, hph]

/-- Only the two ends of a transaction lead to `IDLE`, and both set `DONE` (R109, R116). -/
theorem phaseExit_done_of_idle {s : State} (hp : s.ph ≠ .idle) (hend : (phaseExit s).ph = .idle) :
    (phaseExit s).done = 1#1 := by
  cases hph : s.ph <;> simp only [phaseExit, hph] at hend ⊢
  case idle => exact absurd hph hp
  case pollBackoff =>
    by_cases hlt : s.retry.toNat < Config.retryBudget
    · rw [exitPollBackoff_of_lt hlt] at hend
      exact Phase.noConfusion hend
    · rw [exitPollBackoff_of_exhausted hlt]
  case csOff => rfl
  case pollSample =>
    unfold exitPollSample at hend
    split at hend <;> exact Phase.noConfusion hend
  case txHi =>
    unfold exitTxHi at hend
    split at hend <;> [skip; split at hend] <;> exact Phase.noConfusion hend
  case rxHi =>
    simp only [exitRxHi, emit_ph] at hend
    split at hend <;> exact Phase.noConfusion hend
  case settle | pollSel | pollHi | txSetup | rxSetup | csHold => exact Phase.noConfusion hend

/-- From a busy state that meets the invariant the engine runs to the end of its transaction. -/
theorem exists_busyRun_to_idle {s : State} (h : MachineInvariant s) (hp : s.ph ≠ .idle) :
    ∃ n t, n ≤ stepsLeft s ∧ BusyRun n s t ∧ t.ph = .idle ∧ t.done = 1#1 := by
  have ⟨_, hcounters, _⟩ := h
  have hless : stepsLeft (phaseExit s) < stepsLeft s := stepsLeft_phaseExit_lt hcounters hp
  by_cases hend : (phaseExit s).ph = .idle
  · exact ⟨1, _, by omega, .step hp rfl (.refl _), hend, phaseExit_done_of_idle hp hend⟩
  · have hnext : MachineInvariant (phaseExit s) :=
      (machineInvariant_iff _).mpr (phaseInvariant_phaseExit ((machineInvariant_iff s).mp h))
    obtain ⟨n, t, hn, hrun, hidle, hdone⟩ := exists_busyRun_to_idle hnext hend
    exact ⟨n + 1, t, by omega, .step hp rfl hrun, hidle, hdone⟩
termination_by stepsLeft s

/-- Settles O41: the run's steps are at most the 544 of `SETTLE`, and the host meanwhile changes none of it (R100). -/
theorem everyTransactionEnds : Obligations.EveryTransactionEnds := by
  intro s h hr hp
  obtain ⟨n, t, hn, hrun, hidle, hdone⟩ := exists_busyRun_to_idle h hp
  obtain ⟨p, ps, hsteps⟩ := hrun.runSteps (p := s.port) (ps := s.upcoming) (n := s.waitCnt) hr
  exact ⟨n, _, hn.trans stepsLeft_le, hsteps, hidle, hdone⟩

end Sys2Proof.Machine
end

section
/-! PROOFS. A command's transaction, whole: from its edge in `IDLE`, and from the host's presentation of it (R117, R140 to R147). -/

namespace Sys2Proof.Machine

/-! ## From the command's edge -/

/-- The machine runs from the latched word to the end the big-step function gives (R117). -/
theorem runSteps_startedWith (w : TxWord) {s : State} (hr : NoReset s) :
    ∃ t, runSteps (transactionFrom w s).steps (startedWith w s) = .next t ∧ EndsAs s t (transactionFrom w s) := by
  obtain ⟨t, hrun, hends⟩ := transaction_run w s
  obtain ⟨p, ps, hsteps⟩ := hrun.runSteps (p := s.port) (ps := s.upcoming) (n := s.waitCnt) hr
  exact ⟨_, hsteps, hends.withHost p ps s.waitCnt⟩

/-- A command runs the transaction of the word it encodes to, however that word is written (R140). -/
theorem runsTransaction_of_encode {i : Instr} {w : TxWord} (hw : encode i = w) : RunsTransaction i w := fun _ hp hr =>
  ⟨exec_of_idle_of_encode hw hp, runSteps_startedWith w hr⟩

/-- Settles O20: the words of the four opcode-00 commands (decisions D8, D9, D10), each run as R117 infers. -/
theorem selectorCommandsRunTheirTransactions : Obligations.SelectorCommandsRunTheirTransactions :=
  ⟨runsTransaction_of_encode (by decide), fun d => runsTransaction_of_encode (encode_writeAll d),
    runsTransaction_of_encode (by decide), runsTransaction_of_encode (by decide)⟩

/-- Settles O21: the words of the three addressed commands (decisions D8, D10), each run as R117 infers. -/
theorem addressedCommandsRunTheirTransactions : Obligations.AddressedCommandsRunTheirTransactions := fun a =>
  ⟨fun d => runsTransaction_of_encode (encode_writeShort a d), runsTransaction_of_encode (encode_readShort a),
    runsTransaction_of_encode (encode_eraseShort a)⟩

/-! ## From the host's presentation -/

/-- The host's wait is long enough for every transaction: the longest, a read after 110 busy answers, takes 544 steps (R118). -/
theorem transactionFrom_steps_le_transactFuel (w : TxWord) (s : State) : (transactionFrom w s).steps ≤ transactFuel := by
  unfold transactFuel
  cases hb : busyBefore s.answer with
  | none =>
    rw [transactionFrom_of_timeout hb]
    exact (by decide : 445 ≤ 545)
  | some b =>
    have hbudget : b < 111 := (busyBefore_eq_some hb).1
    by_cases hwr : s.port.wantsRead = 1#1
    · rw [transactionFrom_of_ready_with_read hb hwr]
      change 104 + 4 * b ≤ 545
      omega
    · rw [transactionFrom_of_ready_without_read hb hwr]
      change 70 + 4 * b ≤ 545
      omega

/-- Settles O44: the host waits through the run of the presented word, whose end does not show how the host drops `start`
(log 20). -/
theorem hostTransactionEnds : Obligations.HostTransactionEnds := by
  intro x s hp
  obtain ⟨t, hrun, hends⟩ := transaction_run (encode x.instr) (present x s)
  obtain ⟨p, ps, hend⟩ := runTransaction_of_busyRun hp hrun hends.ph (transactionFrom_steps_le_transactFuel _ _)
  exact ⟨_, hend, hends.withHost p ps s.waitCnt⟩

end Sys2Proof.Machine
end

section
/-! PROOFS. The dispatcher's check of a call's operands, and the register store with the guard on its image file (R160 to R162, R172, R174). -/

namespace Sys2Proof.Machine

/-! ## The dispatcher's check -/

/-- An ill-formed call fails the check, with one of the two range errors (R174). -/
theorem validateCall_of_not_wellFormed {c : DispatcherCall} (h : c.wellFormed = false) :
    validateCall c = .error .addressOutOfRange ∨ validateCall c = .error .dataOutOfRange := by
  cases c with
  | read a | erase a => exact .inl (if_neg (Bool.eq_false_iff.mp h))
  | writeAll d => exact .inr (if_neg (Bool.eq_false_iff.mp h))
  | write a d =>
    cases ha : addrInRange a with
    | false => exact .inl (by simp [validateCall, ha])
    | true =>
      have hd : dataInRange d = false := by simpa [DispatcherCall.wellFormed, ha] using h
      exact .inr (by simp [validateCall, ha, hd])
  | eraseAll | writeEnable | writeDisable | readAll => cases h

/-- A call that fails the check leaves machine and store alone. -/
theorem dispatch_of_invalid {c : DispatcherCall} {e : DispatchError} (h : validateCall c = .error e) (s : State)
    (st : RegisterStore) : dispatch c s st = { machine := s, store := st, values := .error e } := by
  simp only [dispatch, h]

/-- Settles O51: the check answers an ill-formed call with a range error, and that error is all the call gives. -/
theorem badOperandsNeverReachTheEngine : Obligations.BadOperandsNeverReachTheEngine := by
  intro c s st hc
  obtain h | h := validateCall_of_not_wellFormed hc
  · rw [dispatch_of_invalid h]
    exact ⟨rfl, rfl, .inl rfl⟩
  · rw [dispatch_of_invalid h]
    exact ⟨rfl, rfl, .inr rfl⟩

/-! ## The register store -/

/-- The 64 addresses, in the order the store's operations go through them. -/
def addresses : List Addr := (List.range Config.nRegs).map (BitVec.ofNat 6)

theorem mem_addresses (a : Addr) : a ∈ addresses :=
  List.mem_map.mpr ⟨a.toNat, List.mem_range.mpr a.isLt, by simp⟩

/-- `set` changes the register at its address alone, and populates it (R161, R162). -/
theorem RegisterStore.at_set (st : RegisterStore) (a b : Addr) (v : Data) :
    (st.set b v).at a = if a = b then { value := v, populated := true } else st.at a := by
  simp only [RegisterStore.at, RegisterStore.set, Vector.getElem_set, ← BitVec.toNat_inj, eq_comm]

/-- A store is its 64 registers. -/
theorem RegisterStore.ext_at {st st' : RegisterStore} (h : ∀ a, st.at a = st'.at a) : st = st' := by
  have hregs : st.registers = st'.registers := Vector.ext fun i hi => by
    simpa [RegisterStore.at, Nat.mod_eq_of_lt hi] using h (BitVec.ofNat 6 i)
  cases st
  cases st'
  exact congrArg RegisterStore.mk hregs

/-- `allPopulated` speaks of every address (R161). -/
theorem RegisterStore.allPopulated_iff {st : RegisterStore} : st.allPopulated = true ↔ ∀ a, st.isPopulated a = true := by
  have hall : st.allPopulated = addresses.all st.isPopulated := List.all_map.symm
  rw [hall, List.all_eq_true]
  exact forall_congr' fun a => imp_iff_right (mem_addresses a)

/-- Settles O55: the guard is a test of `allPopulated`. -/
theorem exportNeedsEveryRegister : Obligations.ExportNeedsEveryRegister := fun _ =>
  ⟨fun h => if_pos h, fun h => if_neg (Bool.eq_false_iff.mp h)⟩

end Sys2Proof.Machine
end

section
/-! PROOFS. The text records read back what was written: hex fields, data records, and the lines `serialize` emits (R163 to R171). -/

namespace Sys2Proof.Machine

/-! ## Hex fields -/

theorem hexDigit_hexChar {n : Nat} (h : n < 16) : hexDigit (hexChar n) = some n :=
  (by decide : ∀ n < 16, hexDigit (hexChar n) = some n) n h

theorem hexValue_concat (cs : Line) (c : Char) :
    hexValue (cs ++ [c]) = (hexValue cs).bind fun v => (hexDigit c).map fun d => 16 * v + d :=
  List.foldl_concat ..

@[simp] theorem length_hexField (k n : Nat) : (hexField k n).length = k := by
  induction k generalizing n with
  | zero => rfl
  | succ k ih => simp [hexField, ih]

/-- A field of `k` digits reads back as the number modulo `16 ^ k`. -/
theorem hexValue_hexField (k n : Nat) : hexValue (hexField k n) = some (n % 16 ^ k) := by
  induction k generalizing n with
  | zero => simp [hexField, hexValue, Nat.mod_one]
  | succ k ih =>
    have hdigit : hexDigit (hexChar (n % 16)) = some (n % 16) := hexDigit_hexChar (Nat.mod_lt _ (by decide))
    have hsplit : n % 16 ^ (k + 1) = n % 16 + 16 * (n / 16 % 16 ^ k) := by rw [pow_succ', Nat.mod_mul]
    simp only [hexField, hexValue_concat, ih, hdigit, hsplit, Option.bind_some, Option.map_some, Nat.add_comm]

theorem hexValue_hexField_of_lt {k n : Nat} (h : n < 16 ^ k) : hexValue (hexField k n) = some n := by
  rw [hexValue_hexField, Nat.mod_eq_of_lt h]

theorem hexDigit_isSome_of_mem_hexField {c : Char} {k n : Nat} (h : c ∈ hexField k n) : (hexDigit c).isSome = true := by
  induction k generalizing n with
  | zero => cases h
  | succ k ih =>
    obtain h | h := List.mem_append.mp h
    · exact ih h
    · rw [List.mem_singleton.mp h, hexDigit_hexChar (Nat.mod_lt _ (by decide))]
      rfl

/-! ## Data records -/

/-- Every field of the record fits the characters it has (R163). -/
structure HexRecord.Fits (r : HexRecord) : Prop where
  length : r.length < 16 ^ 2
  address : r.address < 16 ^ 4
  type : r.type < 16 ^ 2
  byte1 : r.byte1 < 16 ^ 2
  byte2 : r.byte2 < 16 ^ 2
  checksum : r.checksum < 16 ^ 2

@[simp] theorem head?_writeRecord (r : HexRecord) : (writeRecord r).head? = some ':' := rfl

@[simp] theorem length_writeRecord (r : HexRecord) : (writeRecord r).length = 15 := by simp [writeRecord]

/-- After the colon a record has hex digits only. -/
theorem hexDigit_isSome_of_mem_writeRecord {r : HexRecord} {c : Char} (h : c ∈ (writeRecord r).drop 1) :
    (hexDigit c).isSome = true := by
  simp only [writeRecord, List.cons_append, List.drop_succ_cons, List.drop_zero, List.mem_append, or_assoc] at h
  obtain h | h | h | h | h | h := h <;> exact hexDigit_isSome_of_mem_hexField h

theorem readRecord_writeRecord {r : HexRecord} (h : r.Fits) : readRecord ((writeRecord r).drop 1) = some r := by
  simp [readRecord, writeRecord, List.drop_append, List.take_of_length_le, List.drop_eq_nil_of_le,
    hexValue_hexField_of_lt h.length, hexValue_hexField_of_lt h.address, hexValue_hexField_of_lt h.type,
    hexValue_hexField_of_lt h.byte1, hexValue_hexField_of_lt h.byte2, hexValue_hexField_of_lt h.checksum]

theorem checksumFor_lt (sum : Nat) : checksumFor sum < 256 := Nat.mod_lt _ (by decide)

/-- The checksum makes the sum zero modulo 256 (R164, R171). -/
theorem add_checksumFor_mod (sum : Nat) : (sum + checksumFor sum) % 256 = 0 := by
  unfold checksumFor
  omega

theorem recordOf_fits (a : Addr) (v : Data) : (recordOf a.toNat v).Fits where
  length := (by decide : 2 < 16 ^ 2)
  address := Nat.lt_trans a.isLt (by decide)
  type := (by decide : 0 < 16 ^ 2)
  byte1 := Nat.mod_lt _ (by decide)
  byte2 := Nat.div_lt_of_lt_mul v.isLt
  checksum := checksumFor_lt _

theorem recordSum_recordOf (a : Nat) (v : Data) : recordSum (recordOf a v) % 256 = 0 :=
  add_checksumFor_mod _

theorem recordAccepted_recordOf (a : Addr) (v : Data) : recordAccepted (recordOf a.toNat v) = true := by
  simp only [recordAccepted, Bool.and_eq_true, beq_iff_eq, decide_eq_true_iff]
  exact ⟨⟨⟨rfl, a.isLt⟩, rfl⟩, recordSum_recordOf a.toNat v⟩

theorem recordValue_recordOf (a : Nat) (v : Data) : recordValue (recordOf a v) = v := by
  have hbytes : v.toNat / 256 * 256 + v.toNat % 256 = v.toNat := Nat.div_add_mod' ..
  exact (congrArg (BitVec.ofNat 16) hbytes).trans (by simp)

/-! ## The lines of a store -/

/-- The line of a register (R171). -/
def registerLine (a : Addr) (v : Data) : Line := writeRecord (recordOf a.toNat v)

theorem serialize_eq (st : RegisterStore) :
    serialize st = (addresses.map fun a => registerLine a (st.get a)) ++ [eofRecord] := by
  unfold serialize addresses registerLine
  rw [List.map_map]
  refine congrArg (· ++ _) (List.map_congr_left fun n hn => ?_)
  rw [Function.comp_apply, BitVec.toNat_ofNat, Nat.mod_eq_of_lt (show n < 2 ^ 6 from List.mem_range.mp hn)]

theorem length_addresses : addresses.length = 64 := by simp [addresses, Config.nRegs]

/-- Each address stands at its own index. -/
theorem getElem?_addresses (a : Addr) : addresses[a.toNat]? = some a := by
  simp [addresses, Config.nRegs, a.isLt]

theorem length_serialize (st : RegisterStore) : (serialize st).length = 65 := by
  simp [serialize_eq, length_addresses]

theorem getElem?_serialize_last (st : RegisterStore) : (serialize st)[64]? = some eofRecord := by
  simp [serialize_eq, length_addresses]

theorem getElem?_serialize (st : RegisterStore) (a : Addr) :
    (serialize st)[a.toNat]? = some (registerLine a (st.get a)) := by
  have hlt : a.toNat < (addresses.map fun a => registerLine a (st.get a)).length := by
    rw [List.length_map, length_addresses]
    exact a.isLt
  rw [serialize_eq, List.getElem?_append_left hlt, List.getElem?_map, getElem?_addresses]
  rfl

/-- The lines depend on the values alone. -/
theorem serialize_congr {st st' : RegisterStore} (h : ∀ a, st.get a = st'.get a) : serialize st = serialize st' := by
  simp only [serialize_eq, h]

/-- Settles O53: the line of an address is the record of its value, which fits its characters and so reads back. -/
theorem recordChecksumLaw : Obligations.RecordChecksumLaw := by
  refine ⟨fun st => ⟨length_serialize st, getElem?_serialize_last st, fun a => ?_⟩, fun _ _ => serialize_congr⟩
  exact ⟨registerLine a (st.get a), recordOf a.toNat (st.get a), getElem?_serialize st a, head?_writeRecord _,
    length_writeRecord _, readRecord_writeRecord (recordOf_fits a _), rfl, rfl, rfl, rfl, rfl, checksumFor_lt _,
    add_checksumFor_mod _, recordSum_recordOf a.toNat _⟩

end Sys2Proof.Machine
end

section
/-! PROOFS. What `serialize` wrote, parsed again (R165, R176). -/

namespace Sys2Proof.Machine

/-! ## One line -/

/-- No hex digit is a line end. -/
theorem isLineEnd_of_hexDigit_isSome {c : Char} (h : (hexDigit c).isSome = true) : isLineEnd c = false := by
  by_contra hend
  have hcode : c.toNat = 13 ∨ c.toNat = 10 := by
    simpa only [isLineEnd, Bool.not_eq_false, Bool.or_eq_true, beq_iff_eq] using hend
  obtain hcode | hcode := hcode <;> simp [hexDigit, hcode] at h

/-- A line without line ends is left as it is (R165 step 1). -/
theorem stripLine_of_no_line_end {l : Line} (h : ∀ c ∈ l, isLineEnd c = false) : stripLine l = l := by
  have hkept : l.reverse.dropWhile isLineEnd = l.reverse := by
    cases hl : l.reverse with
    | nil => rfl
    | cons c cs =>
      have hc : isLineEnd c = false := h c (List.mem_reverse.mp (hl ▸ List.mem_cons_self))
      rw [List.dropWhile_cons_of_neg (Bool.eq_false_iff.mp hc)]
  rw [stripLine, hkept, List.reverse_reverse]

theorem stripLine_writeRecord (r : HexRecord) : stripLine (writeRecord r) = writeRecord r :=
  stripLine_of_no_line_end fun c hc => by
    obtain rfl | hc := List.mem_cons.mp (show c ∈ ':' :: (writeRecord r).drop 1 from hc)
    · rfl
    · exact isLineEnd_of_hexDigit_isSome (hexDigit_isSome_of_mem_writeRecord hc)

/-- The parser takes the written record as a data line (R165, R167). -/
theorem lineAction_writeRecord (r : HexRecord) : lineAction (writeRecord r) = dataLineAction (writeRecord r) := by
  have hdigits : ((writeRecord r).drop 1).any (fun c => (hexDigit c).isNone) = false :=
    List.any_eq_false.mpr fun c hc => by rw [← Option.not_isSome, hexDigit_isSome_of_mem_writeRecord hc]; decide
  rw [lineAction, if_neg (Bool.eq_false_iff.mp hdigits), if_neg (not_not.mpr (head?_writeRecord r)), if_pos (length_writeRecord r)]

/-- The line of a register asks the parser to store the register's value at its address (R166). -/
theorem lineAction_registerLine (a : Addr) (v : Data) : lineAction (stripLine (registerLine a v)) = .store a v := by
  have haddr : BitVec.ofNat 6 (recordOf a.toNat v).address = a := BitVec.eq_of_toNat_eq (Nat.mod_eq_of_lt a.isLt)
  rw [registerLine, stripLine_writeRecord, lineAction_writeRecord, dataLineAction,
    readRecord_writeRecord (recordOf_fits a v)]
  simp only [recordAccepted_recordOf, if_true, haddr, recordValue_recordOf]

theorem lineAction_eofRecord : lineAction (stripLine eofRecord) = .stop := by decide

/-! ## All the lines -/

/-- The registers at `as` set in turn to the values of `f`. -/
def RegisterStore.setAll (st : RegisterStore) (as : List Addr) (f : Addr → Data) : RegisterStore :=
  as.foldl (fun st a => st.set a (f a)) st

theorem RegisterStore.at_setAll (st : RegisterStore) (as : List Addr) (f : Addr → Data) (a : Addr) :
    (st.setAll as f).at a = if a ∈ as then { value := f a, populated := true } else st.at a := by
  induction as generalizing st with
  | nil => rfl
  | cons b bs ih =>
    have hcons : st.setAll (b :: bs) f = (st.set b (f b)).setAll bs f := rfl
    rw [hcons, ih, at_set]
    by_cases hb : a = b <;> simp [hb]

/-- The lines of registers, ended by the end-of-file record, set those registers and give no diagnostic. -/
theorem parseFrom_registerLines (n : Nat) (st : RegisterStore) (as : List Addr) (f : Addr → Data) :
    parseFrom n st ((as.map fun a => registerLine a (f a)) ++ [eofRecord]) = (st.setAll as f, []) := by
  induction as generalizing n st with
  | nil => simp only [List.map_nil, List.nil_append, parseFrom, lineAction_eofRecord, RegisterStore.setAll, List.foldl_nil]
  | cons a as ih =>
    simp only [List.map_cons, List.cons_append, parseFrom, lineAction_registerLine, ih]
    rfl

theorem parse_serialize (st : RegisterStore) :
    parse (serialize st) = (RegisterStore.fresh.setAll addresses st.get, []) := by
  rw [serialize_eq]
  exact parseFrom_registerLines ..

/-- After the round trip every register is populated and holds its value. -/
theorem at_parse_serialize (st : RegisterStore) (a : Addr) :
    (parse (serialize st)).1.at a = { value := st.get a, populated := true } := by
  rw [parse_serialize, RegisterStore.at_setAll, if_pos (mem_addresses a)]

/-- Settles O54: the parse gives every register back populated, so a store that was fully populated comes back whole. -/
theorem serializeParseRoundTrip : Obligations.SerializeParseRoundTrip := by
  intro st
  have hget : ∀ a, (parse (serialize st)).1.get a = st.get a := fun a => by
    rw [RegisterStore.get, at_parse_serialize]
  refine ⟨by rw [parse_serialize], serialize_congr hget, fun hall => RegisterStore.ext_at fun a => ?_⟩
  have hpop : (st.at a).populated = true := RegisterStore.allPopulated_iff.mp hall a
  rw [at_parse_serialize, ← hpop]
  rfl

end Sys2Proof.Machine
end

section
/-! PROOFS. `DeviceTimeout`, the engine's one exception: which step raises it, what it leaves, and what takes it back
(R109, R190 to R193). -/

namespace Sys2Proof.Machine

/-! ## What a step does to `TIMEOUT` -/

section
variable {s t : State}

@[simp] theorem exitPollSample_timeout (s : State) : (exitPollSample s).timeout = s.timeout := by
  unfold exitPollSample
  split <;> exact sampled_timeout s

@[simp] theorem exitTxHi_timeout (s : State) : (exitTxHi s).timeout = s.timeout := by
  unfold exitTxHi
  split <;> [rfl; (split <;> rfl)]

/-- No phase's rule but that of `POLL_BACKOFF` writes `TIMEOUT`. -/
theorem phaseExit_timeout (hp : s.ph ≠ .pollBackoff) : (phaseExit s).timeout = s.timeout := by
  cases hph : s.ph <;> simp only [phaseExit, hph]
  case pollBackoff => exact absurd hph hp
  case pollSample => exact exitPollSample_timeout s
  case txHi => exact exitTxHi_timeout s
  case rxSetup => exact sampled_timeout s
  case settle | pollSel | pollHi | txSetup | rxHi | csHold | csOff => rfl

/-- A phase's rule leaves `TIMEOUT` alone, or it is the exhausted back-off taking the exception (R109, R190). -/
theorem phaseExit_timeout_cases (s : State) :
    (phaseExit s).timeout = s.timeout ∨
    (s.ph = .pollBackoff ∧ Config.retryBudget ≤ s.retry.toNat ∧
      phaseExit s = raiseDeviceTimeout (emit [.dwell .tPoll] s)) := by
  by_cases hp : s.ph = .pollBackoff
  · have hexit : phaseExit s = exitPollBackoff s := by simp only [phaseExit, hp]
    rw [hexit]
    by_cases hleft : s.retry.toNat < Config.retryBudget
    · exact .inl (by rw [exitPollBackoff_of_lt hleft])
    · exact .inr ⟨hp, Nat.le_of_not_lt hleft, exitPollBackoff_of_exhausted hleft⟩
  · exact .inl (phaseExit_timeout hp)

/-- A step leaves `TIMEOUT` alone, clears it at a reset edge or an accepted start, or raises it at the exhausted back-off. -/
theorem step_timeout_cases (h : step s = .next t) :
    t.timeout = s.timeout ∨
    (t.timeout = 0#1 ∧
      (s.port.rst = 1#1 ∨ s.ph = .idle ∧ s.port.start = 1#1 ∧ ∃ i, decodePort s.port.command = .command i)) ∨
    (s.port.rst = 0#1 ∧ s.ph = .pollBackoff ∧ Config.retryBudget ≤ s.retry.toNat ∧
      t = advanceHost (raiseDeviceTimeout (emit [.dwell .tPoll] s))) := by
  obtain ⟨hr, rfl⟩ | ⟨-, hp, hs, i, hi, rfl⟩ | ⟨-, -, -, rfl⟩ | ⟨hr, -, rfl⟩ := step_next_cases h
  · exact .inr (.inl ⟨advanceHost_timeout _, .inl hr⟩)
  · exact .inr (.inl ⟨advanceHost_timeout _, .inr ⟨hp, hs, i, hi⟩⟩)
  · exact .inl (advanceHost_timeout s)
  · obtain hkept | ⟨hp, hused, hexit⟩ := phaseExit_timeout_cases s
    · exact .inl ((advanceHost_timeout _).trans hkept)
    · exact .inr (.inr ⟨bit_ne_one_iff.mp hr, hp, hused, congrArg advanceHost hexit⟩)

/-- `TIMEOUT` rises only where the exception is taken. -/
theorem step_raises_timeout (h : step s = .next t) (hlow : s.timeout = 0#1) (hhigh : t.timeout = 1#1) :
    s.port.rst = 0#1 ∧ s.ph = .pollBackoff ∧ Config.retryBudget ≤ s.retry.toNat ∧
      t = advanceHost (raiseDeviceTimeout (emit [.dwell .tPoll] s)) := by
  obtain hkept | ⟨hcleared, -⟩ | hraised := step_timeout_cases h
  · exact absurd hhigh (bit_ne_one_iff.mpr (hkept.trans hlow))
  · exact absurd hhigh (bit_ne_one_iff.mpr hcleared)
  · exact hraised

/-! ## The accepted start -/

theorem kind_ne_seven_of_command {c : PortCommand} {i : Instr} (h : decodePort c = .command i) : c.kind ≠ 7#3 :=
  fun hkind => Decoded.noConfusion (h.symm.trans (decodePort_of_reserved hkind))

/-- An idle edge with a start and no reset that goes on has accepted the start (R103). -/
theorem step_next_of_start (h : step s = .next t) (hrst : s.port.rst = 0#1) (hp : s.ph = .idle)
    (hs : s.port.start = 1#1) : ∃ i, t = advanceHost (acceptedStart (encode i) s) := by
  obtain ⟨hr, -⟩ | ⟨-, -, -, i, -, ht⟩ | ⟨-, -, hs', -⟩ | ⟨-, hp', -⟩ := step_next_cases h
  · exact absurd hr (bit_ne_one_iff.mpr hrst)
  · exact ⟨i, ht⟩
  · exact absurd hs hs'
  · exact absurd hp hp'

/-! ## The state at the end of a back-off -/

/-- Under the invariant the pins are low and no result is valid during the back-off (R39, R218). -/
theorem MachineInvariant.pins_and_valid_low_of_pollBackoff (h : MachineInvariant s) (hp : s.ph = .pollBackoff) :
    s.cs = 0#1 ∧ s.sk = 0#1 ∧ s.dout = 0#1 ∧ s.resultValid = 0#1 := by
  have htable : PhaseInvariant s := (machineInvariant_iff s).mp h
  unfold PhaseInvariant at htable
  rw [hp] at htable
  obtain ⟨-, hcs, hsk, hdout, -, -, hvalid⟩ := htable
  exact ⟨hcs, hsk, hdout, hvalid⟩

end

/-- Settles O30: the one rule that raises `TIMEOUT` is that of `POLL_BACKOFF` with the budget used up (log 9). -/
theorem timeoutRaisedOnlyByExhaustedBackoff : Obligations.TimeoutRaisedOnlyByExhaustedBackoff := by
  intro s t h hlow hhigh
  obtain ⟨hrst, hp, hused, -⟩ := step_raises_timeout h hlow hhigh
  exact ⟨hrst, hp, hused⟩

/-- Settles O56: only an accepted start takes the failure back, and the exception ends the transaction (R103, R192). -/
theorem failureLastsUntilNextStart : Obligations.FailureLastsUntilNextStart := by
  intro s t hrst h
  refine ⟨fun hhigh hlow => ?_, fun hp hs => ?_, fun hlow hhigh => ?_⟩
  · obtain hkept | ⟨-, hr | ⟨hp, hs, i, hi⟩⟩ | ⟨-, -, -, rfl⟩ := step_timeout_cases h
    · exact absurd (hkept.trans hhigh) hlow
    · exact absurd hr (bit_ne_one_iff.mpr hrst)
    · exact ⟨hp, hs, kind_ne_seven_of_command hi⟩
    · exact absurd (advanceHost_timeout _) hlow
  · obtain ⟨i, rfl⟩ := step_next_of_start h hrst hp hs
    simp [acceptedStart]
  · obtain ⟨-, -, -, rfl⟩ := step_raises_timeout h hlow hhigh
    exact ⟨advanceHost_ph _, advanceHost_done _⟩

/-- Settles O29: the exhausted back-off writes the two flags and the phase; the pins were low already (R191). -/
theorem deviceTimeoutEntry : Obligations.DeviceTimeoutEntry := by
  intro s hinv hrst hp hused
  obtain ⟨hcs, hsk, hdout, hvalid⟩ := hinv.pins_and_valid_low_of_pollBackoff hp
  refine ⟨_, (backoffRetriesOrTimesOut s hrst hp).2 hused, ?_⟩
  simp [hcs, hsk, hdout, hvalid]

end Sys2Proof.Machine
end

section
/-! PROOFS. Reset at any edge (R210), and time: the dwells in clocks (R227) and the minimum duration of a transaction's trace,
part by part (R225, R226). -/

namespace Sys2Proof.Machine

/-! ## Reset -/

/-- Settles O10: the reset edge comes before every other, and writes pins, flags and phase whatever they were (R210). -/
theorem resetOverridesEveryEdge : Obligations.ResetOverridesEveryEdge := fun s hrst =>
  ⟨resetEdge s, step_of_reset hrst, rfl, rfl, rfl, rfl, rfl, rfl, rfl, rfl, rfl, rfl⟩

/-! ## Dwells in clocks -/

theorem one_le_clocksFor (ns hz : Nat) : 1 ≤ clocksFor ns hz := Nat.le_max_left ..

/-- The clocks of a dwell, at the clock's period, are at least its time: the quotient is rounded up (R227). -/
theorem le_clocksFor_mul (ns hz : Nat) : ns * hz ≤ clocksFor ns hz * 1000000000 := by
  have hceil : ns * hz ≤ (ns * hz + 999999999) / 1000000000 * 1000000000 := by omega
  exact hceil.trans (Nat.mul_le_mul_right _ (Nat.le_max_right ..))

/-- Settles O50: the two bounds of the rounded-up quotient, and the table of R225 at 1 MHz (R227; D13). -/
theorem dwellClocks : Obligations.DwellClocks :=
  ⟨fun ns hz => ⟨one_le_clocksFor ns hz, le_clocksFor_mul ns hz⟩, by decide⟩

/-! ## The minimum duration of a trace -/

@[simp] theorem minimumNs_nil : minimumNs [] = 0 := rfl

@[simp] theorem minimumNs_dwell_cons (d : Dwell) (es : List PinEvent) :
    minimumNs (.dwell d :: es) = dwellNs d + minimumNs es := by
  simp [minimumNs]

/-- Drives and samples take no time of their own. -/
theorem minimumNs_cons_of_not_dwell {e : PinEvent} (h : isDwell e = false) (es : List PinEvent) :
    minimumNs (e :: es) = minimumNs es := by
  cases e with
  | dwell d => exact Bool.noConfusion h
  | cs | sk | dout | sample => simp [minimumNs]

@[simp] theorem minimumNs_cs_cons (l : Bit) (es : List PinEvent) : minimumNs (.cs l :: es) = minimumNs es :=
  minimumNs_cons_of_not_dwell rfl es

@[simp] theorem minimumNs_sk_cons (l : Bit) (es : List PinEvent) : minimumNs (.sk l :: es) = minimumNs es :=
  minimumNs_cons_of_not_dwell rfl es

@[simp] theorem minimumNs_dout_cons (l : Bit) (es : List PinEvent) : minimumNs (.dout l :: es) = minimumNs es :=
  minimumNs_cons_of_not_dwell rfl es

@[simp] theorem minimumNs_sample_cons (l : Bit) (es : List PinEvent) : minimumNs (.sample l :: es) = minimumNs es :=
  minimumNs_cons_of_not_dwell rfl es

theorem minimumNs_append (es fs : List PinEvent) : minimumNs (es ++ fs) = minimumNs es + minimumNs fs := by
  simp [minimumNs]

/-- Groups of events that last the same time. -/
theorem minimumNs_flatMap {α : Type} {f : α → List PinEvent} {n : Nat} (h : ∀ a, minimumNs (f a) = n) (as : List α) :
    minimumNs (as.flatMap f) = as.length * n := by
  induction as with
  | nil => exact (Nat.zero_mul n).symm
  | cons a as ih => rw [List.flatMap_cons, minimumNs_append, h, ih, List.length_cons, Nat.succ_mul, Nat.add_comm]

/-! ## The parts of a transaction -/

theorem minimumNs_start : minimumNs [.dout 0#1, .sk 0#1, .dwell .tSettle] = 5000 := by
  simp [dwellNs, Config.tSettleNs]

theorem minimumNs_end : minimumNs [.dwell .tCsh, .cs 0#1, .dwell .tCsl] = Config.tCshNs + Config.tCslNs := by
  simp [dwellNs]

theorem minimumNs_pollEvents (p : Bit) : minimumNs (pollEvents p) = 2000 := by
  simp [pollEvents, dwellNs, Config.tCssNs, Config.tSkhNs]

theorem minimumNs_busyEvents (p : Bit) : minimumNs (busyEvents p) = 202000 := by
  simp [busyEvents, minimumNs_append, minimumNs_pollEvents, dwellNs, Config.tPollNs]

theorem minimumNs_sendEvents (v : Bit) : minimumNs (sendEvents v) = 4000 := by
  simp [sendEvents, dwellNs, Config.tSetupNs, Config.tSkhNs]

theorem minimumNs_receiveEvents (r : Bit) : minimumNs (receiveEvents r) = 4000 := by
  simp [receiveEvents, dwellNs, Config.tSetupNs, Config.tSkhNs]

theorem minimumNs_busyTrace (answers : Nat → Bit) (b : Nat) : minimumNs (busyTrace answers b) = b * 202000 := by
  have h := minimumNs_flatMap (fun k => minimumNs_busyEvents (answers k)) (List.range b)
  rwa [List.length_range] at h

theorem minimumNs_sendTrace (w : TxWord) : minimumNs (sendTrace w) = 128000 := by
  have h := minimumNs_flatMap minimumNs_sendEvents (wireBits w)
  rwa [length_wireBits] at h

theorem minimumNs_receiveTrace (r : Nat → Bit) : minimumNs (receiveTrace r) = 68000 := by
  have h := minimumNs_flatMap (fun j => minimumNs_receiveEvents (r j)) (List.range Config.rxBits)
  rw [List.length_range] at h
  exact (minimumNs_dout_cons _ _).trans h

/-- The read phase, if there is one. -/
theorem minimumNs_readPhase (wr : Bit) (r : Nat → Bit) :
    minimumNs (if wr = 1#1 then receiveTrace r else []) = if wr = 1#1 then 68000 else 0 := by
  split
  · exact minimumNs_receiveTrace r
  · rfl

/-! ## The whole transaction -/

section
variable (t : Transaction) {answers : Nat → Bit}

theorem minimumNs_transact_of_timeout (h : busyBefore answers = none) :
    minimumNs (transact t answers).trace = 22427000 := by
  simp only [transact, h, minimumNs_append, minimumNs_start, minimumNs_busyTrace]
  rfl

theorem minimumNs_transact_of_ready {b : Nat} (h : busyBefore answers = some b) :
    minimumNs (transact t answers).trace =
      135000 + b * 202000 + (if t.wantsRead = 1#1 then 68000 else 0) + (Config.tCshNs + Config.tCslNs) := by
  simp only [transact, h, minimumNs_append, minimumNs_start, minimumNs_busyTrace, minimumNs_pollEvents,
    minimumNs_sendTrace, minimumNs_readPhase, minimumNs_end]
  omega

end

/-- Settles O47: the dwells of the parts, added up (R226; D12, log 14). -/
theorem minimumDurations : Obligations.MinimumDurations := by
  intro w wr answers
  refine ⟨minimumNs_transact_of_timeout ⟨w, wr⟩, fun b h hwr => ?_, fun b h hwr => ?_⟩
  · refine (minimumNs_transact_of_ready ⟨w, wr⟩ h).trans ?_
    rw [if_neg (bit_ne_one_iff.mpr hwr)]
    omega
  · refine (minimumNs_transact_of_ready ⟨w, wr⟩ h).trans ?_
    rw [if_pos hwr]
    omega

end Sys2Proof.Machine
end
